-- ==== Sys2Proof/Word.lean ====
section
/-! DEFINITION. The plain value types of PWCODEC: frames, bytes and the 6-bit position codes. A line level or
a one-bit flag is a Bool, true being 1 or high (R14). Durations and timestamps are
exact naturals (R14), the type Nat itself; their register widths are the parameters `TS_W` and `TX_CNT_W`. -/

namespace Sys2Proof

/-- A frame: 48 bits, frame bit `i` being register bit `i` (R54, R55, R70). -/
abbrev Frame := BitVec 48

/-- A 6-bit code: `rx_count`, `tx_pos` and `rx_frm_bits` (R34, R38, R27). Legal values are 0 to 48. -/
abbrev Code6 := BitVec 6

/-- A byte of a frame (R16). -/
abbrev Byte := BitVec 8

end Sys2Proof
end

