-- ==== Sys2Proof/Config.lean ====
section
/-! DEFINITION. The parameters of an instance (R10), the input ports of a tick (R26), and the values the spec leaves free. -/

namespace Sys2Proof

/-- The elaboration-time parameters of one instance of the block (R10). No rule writes one (R203). -/
structure Params where
  /-- `TICK_US`, microseconds per tick. -/
  tickUs : Nat
  /-- `T_BIT`, bit duration in ticks. -/
  tBit : Nat
  /-- `TOL_PCT`, tolerance percentage of the quantization rule. -/
  tolPct : Nat
  /-- `T_GAP`, frame-gap threshold and trailing-gap length. -/
  tGap : Nat
  /-- `T_MIN`, noise floor. -/
  tMin : Nat
  /-- `T_ACK_TO`, response timeout. -/
  tAckTo : Nat
  /-- `T_TO_GAP`, minimum spacing after a timeout. -/
  tToGap : Nat
  /-- `SLEEP_RES`, rounding unit of the gap remainder. -/
  sleepRes : Nat
  /-- `TS_W`, width of every timestamp register. -/
  tsW : Nat
  /-- `TX_CNT_W`, width of the TX slot counter. -/
  txCntW : Nat
  /-- `RX_INIT_LEVEL`, reset value of RX's last sampled level. -/
  rxInitLevel : Bool
  /-- `ACK_ON_MALFORMED`, whether a malformed frame event sets FLAG. -/
  ackOnMalformed : Bool
  deriving DecidableEq, Repr

/-- The default column of R10: the spec's own instance. -/
def Params.standard : Params :=
  { tickUs := 1, tBit := 104, tolPct := 35, tGap := 7000, tMin := 50, tAckTo := 40000, tToGap := 7000,
    sleepRes := 1, tsW := 64, txCntW := 13, rxInitLevel := true, ackOnMalformed := false }

/-- The input ports of one tick (R26). `clk` is the tick itself. -/
structure Input where
  /-- `rst`, synchronous reset, active high. -/
  rst : Bool
  /-- `rx_in`, the sampled level of the response line. -/
  rxIn : Bool
  /-- `sel_frame`, the outgoing frame offered by the selection collaborator. -/
  selFrame : Frame
  deriving DecidableEq, Repr, Inhabited

/-- One entry of the classifier's table (R162): a name, a 6-byte pattern packed as a frame (R55), and whether
byte 5 is left out of the comparison. -/
structure FrameDefinition (ν : Type) where
  name : ν
  pattern : Frame
  ignoreLastByte : Bool
  deriving DecidableEq, Repr

/-- FREE VALUE. The inputs of a tick for which the state lists no pending input: "free in every tick" (R23, R210, D33).
No value of it can be proved. Log entry 2. -/
opaque Config.freeInput : Nat → Input

/-- OPEN parameter `FRAME_IDLE` (D34, I16): the source does not give it. Log entry 12. -/
opaque Config.frameIdle : Frame

/-- OPEN parameter `FRAME_PRESET2` (D34, I16): the source does not give it. Log entry 12. -/
opaque Config.framePreset2 : Frame

/-- OPEN parameter `CLASSIFY_TABLE` (D34, I17): populated externally. Log entry 12. -/
opaque Config.classifyTable : List (FrameDefinition String)

/-- The preset-1 frame `{0x4A,0x03,0x48,0xA0,0x80,0x06}`, packed as R55 says (R161). -/
def Config.framePreset1 : Frame := 0x0680A048034A#48

end Sys2Proof
end

