-- ==== Sys2Proof/Syntax.lean ====
section
/-! DEFINITION. The operations of PWCODEC, one constructor per row of spec/opcode_table.json, and the decode vectors that
select them. -/

namespace Sys2Proof

/-- An operation: one of the fixed transitions a unit makes in one tick (R2, R69). No operation has an operand field:
everything it reads is state, input or handoff (R84, R90). -/
inductive Instr where
  -- RX, the decoder (R76)
  | rxIdle | rxNoise | rxPrestart | rxBits | rxGapEmpty | rxGapEmit
  -- TX, the encoder (R78)
  | txIdle | txLoad | txHold | txNext | txEnd
  -- HS, the handshake coordinator (R80)
  | hsNap | hsStart | hsSendBusy | hsSendDone | hsWaitPoll | hsAck | hsTimeout | hsReserved
  -- FLAG, the response signal (R82)
  | flagHold | flagSet | flagClr | flagClrSet
  -- the global vector (R83)
  | tbTick | reset
  deriving DecidableEq, Repr

/-- Every operation, in the table's order. -/
def Instr.all : List Instr :=
  [.rxIdle, .rxNoise, .rxPrestart, .rxBits, .rxGapEmpty, .rxGapEmit] ++
  [.txIdle, .txLoad, .txHold, .txNext, .txEnd] ++
  [.hsNap, .hsStart, .hsSendBusy, .hsSendDone, .hsWaitPoll, .hsAck, .hsTimeout, .hsReserved] ++
  [.flagHold, .flagSet, .flagClr, .flagClrSet] ++ [.tbTick, .reset]

/-- The five decode vectors: the "format" of a row (R90). -/
inductive Format where
  | rxdv | txdv | hsdv | fldv | gv
  deriving DecidableEq, Repr

/-- The width of each decode vector (R75, R77, R79, R81, R83). -/
def Format.width : Format → Nat
  | .rxdv => 5
  | .txdv => 4
  | .hsdv => 6
  | .fldv => 2
  | .gv => 1

/-- A value of a decode vector: what an instruction word is on this hardware (R69). -/
inductive Vec where
  | rxdv (v : BitVec 5)
  | txdv (v : BitVec 4)
  | hsdv (v : BitVec 6)
  | fldv (v : BitVec 2)
  | gv (v : BitVec 1)
  deriving DecidableEq, Repr

/-- The vector a value belongs to. -/
def Vec.format : Vec → Format
  | .rxdv _ => .rxdv
  | .txdv _ => .txdv
  | .hsdv _ => .hsdv
  | .fldv _ => .fldv
  | .gv _ => .gv

/-- The value as a number, bit 0 its least significant bit. -/
def Vec.bits : Vec → Nat
  | .rxdv v => v.toNat
  | .txdv v => v.toNat
  | .hsdv v => v.toNat
  | .fldv v => v.toNat
  | .gv v => v.toNat

/-- One row of an operation map: the operation, its vector, and the match and mask over it (R90). -/
structure Row where
  instr : Instr
  format : Format
  pattern : Nat
  mask : Nat
  deriving DecidableEq, Repr

/-- Why a number is no value of a decode vector. -/
inductive DecodeError where
  /-- The number does not fit the vector's width. -/
  | tooWide (f : Format) (w : Nat)
  /-- No row of the vector's map matches (never raised: R87). -/
  | noRow (f : Format) (w : Nat)
  deriving DecidableEq, Repr

end Sys2Proof
end

