-- ==== Sys2Proof/WellFormed.lean ====
section
/-! DEFINITION. What is well formed: a parameter set (R11), a number as a value of a decode vector, an operation. -/

namespace Sys2Proof

/-- The constraints every parameter set satisfies (R11). The three `>= 0` constraints hold of every natural.
`TOL_PCT < 100` is not among them (R12, log entry 8). -/
def Params.valid (p : Params) : Bool :=
  decide (1 ≤ p.tBit) && decide (1 ≤ p.tGap) && decide (1 ≤ p.sleepRes) && decide (1 ≤ p.tickUs) &&
  decide (max p.tBit p.tGap ≤ 2 ^ p.txCntW) && decide (1 ≤ p.tsW)

/-- The relations under which encoder and decoder round-trip frames (R12). Not required of an instance. -/
def Params.roundTrips (p : Params) : Bool :=
  decide (p.tolPct < 100) && decide (p.tMin ≤ p.tBit) && decide (48 * p.tBit < p.tGap)

/-- A number is a value of the vector `f` when it fits its width. -/
def Format.fits (f : Format) (w : Nat) : Bool := decide (w < 2 ^ f.width)

/-- Every operation is well formed: none has an operand field (R84: "No immediate field exists"). -/
def Instr.wellFormed (_ : Instr) : Bool := true

end Sys2Proof
end

