-- ==== Sys2Proof/Decode.lean ====
section
/-! DEFINITION. The operation maps (R76, R78, R80, R82, R83), the decoder over them, and the encoder. -/

namespace Sys2Proof

/-- The RX operation map (R76). -/
def rxRows : List Row :=
  [⟨.rxIdle, .rxdv, 0b00000, 0b00001⟩, ⟨.rxNoise, .rxdv, 0b00011, 0b00011⟩,
   ⟨.rxPrestart, .rxdv, 0b00001, 0b01111⟩, ⟨.rxBits, .rxdv, 0b00101, 0b01111⟩,
   ⟨.rxGapEmpty, .rxdv, 0b01001, 0b11011⟩, ⟨.rxGapEmit, .rxdv, 0b11001, 0b11011⟩]

/-- The TX operation map (R78). -/
def txRows : List Row :=
  [⟨.txIdle, .txdv, 0b0000, 0b0011⟩, ⟨.txLoad, .txdv, 0b0010, 0b0011⟩, ⟨.txHold, .txdv, 0b0001, 0b0101⟩,
   ⟨.txNext, .txdv, 0b0101, 0b1101⟩, ⟨.txEnd, .txdv, 0b1101, 0b1101⟩]

/-- The HS operation map (R80). -/
def hsRows : List Row :=
  [⟨.hsNap, .hsdv, 0b000000, 0b000111⟩, ⟨.hsStart, .hsdv, 0b000100, 0b000111⟩,
   ⟨.hsSendBusy, .hsdv, 0b001001, 0b001011⟩, ⟨.hsSendDone, .hsdv, 0b000001, 0b001011⟩,
   ⟨.hsWaitPoll, .hsdv, 0b000010, 0b110011⟩, ⟨.hsAck, .hsdv, 0b010010, 0b010011⟩,
   ⟨.hsTimeout, .hsdv, 0b100010, 0b110011⟩, ⟨.hsReserved, .hsdv, 0b000011, 0b000011⟩]

/-- The FLAG operation map (R82). -/
def flagRows : List Row :=
  [⟨.flagHold, .fldv, 0b00, 0b11⟩, ⟨.flagSet, .fldv, 0b01, 0b11⟩,
   ⟨.flagClr, .fldv, 0b10, 0b11⟩, ⟨.flagClrSet, .fldv, 0b11, 0b11⟩]

/-- The global vector's map (R83). -/
def globalRows : List Row :=
  [⟨.tbTick, .gv, 0b0, 0b1⟩, ⟨.reset, .gv, 0b1, 0b1⟩]

/-- The whole table (R90), in the order of spec/opcode_table.json. -/
def opcodeTable : List Row :=
  rxRows ++ txRows ++ hsRows ++ flagRows ++ globalRows

/-- "select the row with `(vector & mask) = match`" (R90). -/
def Row.selects (r : Row) (v : Vec) : Bool :=
  decide (r.format = v.format) && decide (v.bits &&& r.mask = r.pattern)

/-- The decoder (R90). By R87 every value of every vector matches exactly one row, so it never answers `none`
(Laws/Decode.lean). -/
def decode (v : Vec) : Option Instr :=
  (opcodeTable.find? (fun r => r.selects v)).map Row.instr

/-- The vector value a number stands for; the caller has checked that it fits. -/
def vecOf (f : Format) (w : Nat) : Vec :=
  match f with
  | .rxdv => .rxdv (BitVec.ofNat 5 w)
  | .txdv => .txdv (BitVec.ofNat 4 w)
  | .hsdv => .hsdv (BitVec.ofNat 6 w)
  | .fldv => .fldv (BitVec.ofNat 2 w)
  | .gv => .gv (BitVec.ofNat 1 w)

/-- Decoding a number as a value of a vector: total, and a rejection has a name. -/
def decodeNumber (f : Format) (w : Nat) : Except DecodeError Instr :=
  if f.fits w then
    match decode (vecOf f w) with
    | some i => .ok i
    | none => .error (.noRow f w)
  else .error (.tooWide f w)

/-- The encoder: the row's match value, its don't-care bits 0 (R76, R78, R80, R82, R83). -/
def encode : Instr → Vec
  | .rxIdle => .rxdv 0b00000#5
  | .rxNoise => .rxdv 0b00011#5
  | .rxPrestart => .rxdv 0b00001#5
  | .rxBits => .rxdv 0b00101#5
  | .rxGapEmpty => .rxdv 0b01001#5
  | .rxGapEmit => .rxdv 0b11001#5
  | .txIdle => .txdv 0b0000#4
  | .txLoad => .txdv 0b0010#4
  | .txHold => .txdv 0b0001#4
  | .txNext => .txdv 0b0101#4
  | .txEnd => .txdv 0b1101#4
  | .hsNap => .hsdv 0b000000#6
  | .hsStart => .hsdv 0b000100#6
  | .hsSendBusy => .hsdv 0b001001#6
  | .hsSendDone => .hsdv 0b000001#6
  | .hsWaitPoll => .hsdv 0b000010#6
  | .hsAck => .hsdv 0b010010#6
  | .hsTimeout => .hsdv 0b100010#6
  | .hsReserved => .hsdv 0b000011#6
  | .flagHold => .fldv 0b00#2
  | .flagSet => .fldv 0b01#2
  | .flagClr => .fldv 0b10#2
  | .flagClrSet => .fldv 0b11#2
  | .tbTick => .gv 0b0#1
  | .reset => .gv 0b1#1

/-- The bits of an operation that its row fixes: the row's mask. -/
def maskOf (i : Instr) : Nat :=
  ((opcodeTable.find? (fun r => decide (r.instr = i))).map Row.mask).getD 0

/-- The vector whose width is exactly `nbits`. The five widths differ, so the width names the vector. -/
def formatOfWidth (nbits : Nat) : Option Format :=
  match nbits with
  | 5 => some .rxdv
  | 4 => some .txdv
  | 6 => some .hsdv
  | 2 => some .fldv
  | 1 => some .gv
  | _ => none

/-- A word given in whole bytes names no vector (every vector fits one byte), so words of different units collide.
It is read as the first row whose match value it equals, else as a value of `RXDV`, else of `HSDV` (log entry 10). -/
def decodeWholeByte (w : Nat) : Option Instr :=
  match opcodeTable.find? (fun r => decide (r.pattern = w)) with
  | some r => some r.instr
  | none =>
    if Format.fits .rxdv w then decode (vecOf .rxdv w)
    else if Format.fits .hsdv w then decode (vecOf .hsdv w)
    else none

/-- The operation the decoder reads from a table word of `nbits` bits (log entry 10). -/
def decodeTableWord (nbits w : Nat) : Option Instr :=
  match formatOfWidth nbits with
  | some f => (decodeNumber f w).toOption
  | none => if nbits % 8 = 0 ∧ nbits ≠ 0 then decodeWholeByte w else none

end Sys2Proof
end

