-- ==== Sys2Proof/Machine/State.lean ====
section
/-! DEFINITION. The state of the machine: the registers of R30 to R43, the instance's parameters, the output ports of the last
tick, and the environment's pending inputs. All of it is plain data. -/

namespace Sys2Proof.Machine

/-- The states of HS in their two-bit encoding; `reserved` is the code 3 (R40). -/
inductive HsState where
  | sleep | send | wait | reserved
  deriving DecidableEq, Repr

/-- The encoding of `hs_state` (R40). -/
def HsState.code : HsState → BitVec 2
  | .sleep => 0#2
  | .send => 1#2
  | .wait => 2#2
  | .reserved => 3#2

/-- The registers of RX (R31 to R35). -/
structure Rx where
  /-- `rx_last_level`. -/
  lastLevel : Bool
  /-- `rx_last_t`. -/
  lastT : Nat
  /-- `rx_frame`. -/
  frame : Frame
  /-- `rx_count`. -/
  count : Code6
  /-- `rx_started`. -/
  started : Bool
  deriving DecidableEq, Repr

/-- The registers of TX (R36 to R39). -/
structure Tx where
  /-- `tx_busy`. -/
  busy : Bool
  /-- `tx_frame`. -/
  frame : Frame
  /-- `tx_pos`. -/
  pos : Code6
  /-- `tx_cnt`. -/
  cnt : Nat
  deriving DecidableEq, Repr

/-- The registers of HS (R40 to R42). -/
structure Hs where
  /-- `hs_state`. -/
  state : HsState
  /-- `hs_t_send_done`. -/
  tSendDone : Nat
  /-- `hs_wake_at`. -/
  wakeAt : Nat
  deriving DecidableEq, Repr

/-- The event outputs of RX (R27, R51). -/
structure RxOut where
  /-- `rx_frm_evt`. -/
  frmEvt : Bool
  /-- `rx_frm_data`. -/
  frmData : Frame
  /-- `rx_frm_bits`. -/
  frmBits : Code6
  /-- `rx_frm_ok`. -/
  frmOk : Bool
  /-- `rx_ovr_evt`. -/
  ovrEvt : Bool
  deriving DecidableEq, Repr

/-- The output ports (R27), as the last tick showed them. -/
structure Outputs where
  rx : RxOut
  /-- `tx_line`. -/
  txLine : Bool
  /-- `hs_to_evt`. -/
  hsToEvt : Bool
  deriving DecidableEq, Repr

/-- The environment (R210): the inputs of the coming ticks that are fixed, the next tick's first, and the number of
ticks run, which numbers the free inputs that follow them. The model's own fields (log entry 2). -/
structure Env where
  pending : List Input
  ticks : Nat
  deriving DecidableEq, Repr

/-- The machine: the instance's parameters (log entry 1), the registers of R30 to R43, the outputs of the last tick
(log entry 3) and the environment (log entry 2). -/
structure State where
  params : Params
  /-- `now` (R30). -/
  now : Nat
  rx : Rx
  tx : Tx
  hs : Hs
  /-- `resp_flag` (R43). -/
  respFlag : Bool
  out : Outputs
  env : Env
  deriving DecidableEq, Repr

/-- How a tick can stop. -/
inductive Fault where
  /-- `UNREACHABLE_STATE` (R85, R144, R176, R185): a register is outside its legal range. Raised by every RX operation
  with `rx_count > 48`, by every RX operation of a change with `rx_last_t > now`, by every TX operation with
  `tx_pos > 48` or `tx_cnt` at or above its slot length, by every HS operation with `hs_state = 3`, by the WAIT
  operations with `hs_t_send_done > now`, and always by HS_RESERVED. Safe: no state reachable from reset raises it. -/
  | unreachableState
  deriving DecidableEq, Repr

/-- What the model gives no meaning to. -/
inductive Refusal where
  /-- An operation that has no meaning yet. No arm raises it. Safe. -/
  | notModelled (mnemonic : String)
  /-- A parameter set that violates R11: "refused at elaboration: it has no meaning under this spec" (R11, I11).
  Raised by every operation. Safe. -/
  | invalidInstance
  /-- The tick would write a timestamp that does not fit `TS_W` bits (R202, I13: treatment "refuse"). Raised by
  TB_TICK, HS_ACK and HS_TIMEOUT. Safe. -/
  | timestampRange
  /-- A decode vector that matches no row. Never raised, by R87. Safe. -/
  | noRow
  deriving DecidableEq, Repr

/-- The outcome of an operation or of a tick. -/
abbrev Result := Host.Outcome State Fault Refusal

/-- RX's registers in `ResetState` (R186, R48). -/
def Rx.initial (p : Params) : Rx :=
  { lastLevel := p.rxInitLevel, lastT := 0, frame := 0#48, count := 0#6, started := false }

/-- TX's registers in `ResetState` (R186, R48). -/
def Tx.initial : Tx := { busy := false, frame := 0#48, pos := 0#6, cnt := 0 }

/-- HS's registers in `ResetState` (R186, R48). -/
def Hs.initial (p : Params) : Hs := { state := .sleep, tSendDone := 0, wakeAt := p.tGap }

/-- RX's event outputs when it emits nothing: "In a tick where a strobe is 0, its data outputs are 0" (R51). -/
def RxOut.quiet : RxOut :=
  { frmEvt := false, frmData := 0#48, frmBits := 0#6, frmOk := false, ovrEvt := false }

/-- The outputs of a reset tick: every strobe 0 and `tx_line = 1` (R50, R51, R186). -/
def Outputs.quiet : Outputs := { rx := .quiet, txLine := true, hsToEvt := false }

/-- The inputs of the tick `n` ticks after the next one: the pending input, else the free one (log entry 2). -/
def State.inputAt (s : State) (n : Nat) : Input :=
  (s.env.pending[n]?).getD (Config.freeInput (s.env.ticks + n))

/-- `in`: the inputs of the tick whose pre-state is `s` (R15). -/
def State.input (s : State) : Input := s.inputAt 0

/-- The registers after RX's step, with its event outputs. -/
def State.withRx (s : State) (r : Rx) (o : RxOut) : State :=
  { s with rx := r, out := { s.out with rx := o } }

/-- The registers after TX's step, with the level it drove in the tick. -/
def State.withTx (s : State) (t : Tx) (line : Bool) : State :=
  { s with tx := t, out := { s.out with txLine := line } }

/-- The registers after HS's step, with its timeout strobe. -/
def State.withHs (s : State) (h : Hs) (timedOut : Bool) : State :=
  { s with hs := h, out := { s.out with hsToEvt := timedOut } }

/-- FLAG's register after its step. -/
def State.withFlag (s : State) (b : Bool) : State := { s with respFlag := b }

/-- TB's register after its step. -/
def State.withNow (s : State) (n : Nat) : State := { s with now := n }

/-- The instance `p` in `ResetState`, nothing pending (R48, R188). -/
def State.initial (p : Params) : State :=
  { params := p, now := 0, rx := .initial p, tx := .initial, hs := .initial p, respFlag := false,
    out := .quiet, env := { pending := [], ticks := 0 } }

/-- The machine right after reset: the spec's default instance (R10, R48, R186). -/
def State.reset : State := .initial .standard

end Sys2Proof.Machine
end

