-- ==== Sys2Proof/Machine/Operands.lean ====
section
/-! DEFINITION. The values assembled from state and inputs (R16, R84, R92): frame access, pulse duration, quantization, slot
lengths, latency and the rounded remainder. -/

namespace Sys2Proof.Machine

/-- `FrameBit(F, i) = F[i]` (R16). -/
def frameBit (F : Frame) (i : Nat) : Bool := F.getLsbD i

/-- `FrameSetBit(F, i, b)`: `F` with bit `i` replaced by `b` (R16). -/
def frameSetBit (F : Frame) (i : Nat) (b : Bool) : Frame :=
  if b then F ||| (1#48 <<< i) else F &&& ~~~(1#48 <<< i)

/-- `FrameByte(F, k) = F[8k+7:8k]` (R16, R55). -/
def frameByte (F : Frame) (k : Nat) : Byte := F.extractLsb' (8 * k) 8

/-- The loop of RX_BITS: bits `i` to `i + k - 1` replaced by `b`, lowest first (R122). -/
def frameSetRun (F : Frame) (i k : Nat) (b : Bool) : Frame :=
  match k with
  | 0 => F
  | k + 1 => frameSetBit (frameSetRun F i k b) (i + k) b

/-- `Q(d) = (d*100 + T_BIT*TOL_PCT) // (T_BIT*100)` (R92), in exact natural arithmetic. -/
def quantize (p : Params) (d : Nat) : Nat := (d * 100 + p.tBit * p.tolPct) / (p.tBit * 100)

/-- `ceil_R(x) = SLEEP_RES * ((x + SLEEP_RES - 1) // SLEEP_RES)` (R14). -/
def ceilR (p : Params) (x : Nat) : Nat := p.sleepRes * ((x + p.sleepRes - 1) / p.sleepRes)

/-- `len(p) = T_BIT` for `p < 48` and `len(48) = T_GAP` (R77, R104). A code above 48 has no length; `tx_pos` never
holds one in a state with a meaning (R85). -/
def slotLength (p : Params) (pos : Nat) : Nat := if pos < 48 then p.tBit else p.tGap

/-- `d = S.now - S.rx_last_t`, the duration of the pulse now ending (R84, R98). -/
def pulseLength (s : State) : Nat := s.now - s.rx.lastT

/-- `nbits = Q(d)`, the number of bits the pulse now ending represents (R84). -/
def pulseBits (s : State) : Nat := quantize s.params (pulseLength s)

/-- `k = min(nbits, 48 - S.rx_count)`, the number of bits accepted (R84). -/
def acceptedBits (s : State) : Nat := min (pulseBits s) (48 - s.rx.count.toNat)

/-- `lat = S.now - S.hs_t_send_done`, the ack latency (R84). -/
def latency (s : State) : Nat := s.now - s.hs.tSendDone

/-- The wake time an ack schedules: the rounded remainder of `T_GAP` when `lat < T_GAP`, else at once (R142). -/
def ackWakeAt (s : State) : Nat :=
  if latency s < s.params.tGap then s.now + ceilR s.params (s.params.tGap - latency s) else s.now

/-- The wake time a timeout schedules: the floor, measured from the timeout tick (R143). -/
def timeoutWakeAt (s : State) : Nat := s.now + s.params.tToGap

/-- `tx_line`, a function of the pre-state alone (R50): the current bit in a bit slot, else the idle level 1. -/
def txLine (t : Tx) : Bool := if t.busy && decide (t.pos.toNat < 48) then frameBit t.frame t.pos.toNat else true

/-- The FRAME event (R51, R74, R121): the frame, its bit count, and whether the count is exactly 48. -/
def frameEvent (r : Rx) : RxOut :=
  { frmEvt := true, frmData := r.frame, frmBits := r.count, frmOk := decide (r.count = 48#6), ovrEvt := false }

/-- RX's event outputs of a data pulse: OVERRUN or nothing (R51, R122). -/
def overrunEvent (exceeds : Bool) : RxOut := { RxOut.quiet with ovrEvt := exceeds }

end Sys2Proof.Machine
end

