-- ==== Sys2Proof/Machine/Flags.lean ====
section
/-! DEFINITION. The condition bits of the decode vectors (R75, R77, R79, R81, R83), the operation each vector selects, and the
handoff signals between the units (R25). -/

namespace Sys2Proof.Machine

/-- `RXDV[4:0]` from its bits (R75). -/
def rxVector (nz gap st noise chg : Bool) : BitVec 5 :=
  BitVec.ofBool nz ++ BitVec.ofBool gap ++ BitVec.ofBool st ++ BitVec.ofBool noise ++ BitVec.ofBool chg

/-- `TXDV[3:0]` from its bits (R77). -/
def txVector (gph last start busy : Bool) : BitVec 4 :=
  BitVec.ofBool gph ++ BitVec.ofBool last ++ BitVec.ofBool start ++ BitVec.ofBool busy

/-- `HSDV[5:0]` from its fields; `late` is the bit `to` (R79). -/
def hsVector (late flag busy due : Bool) (st : BitVec 2) : BitVec 6 :=
  BitVec.ofBool late ++ BitVec.ofBool flag ++ BitVec.ofBool busy ++ BitVec.ofBool due ++ st

/-- `FLDV[1:0]` from its bits (R81). -/
def flagVector (clr set : Bool) : BitVec 2 := BitVec.ofBool clr ++ BitVec.ofBool set

/-- `chg`: the sampled level differs from the last one (R75, R115). -/
def changed (s : State) : Bool := decide (s.input.rxIn ≠ s.rx.lastLevel)

/-- `noise`: `d < T_MIN`, strict (R75, R94). -/
def isNoise (s : State) : Bool := decide (pulseLength s < s.params.tMin)

/-- `gap`: `d >= T_GAP`, inclusive (R75, R95). -/
def isGap (s : State) : Bool := decide (s.params.tGap ≤ pulseLength s)

/-- `nz`: `S.rx_count != 0` (R75). -/
def hasBits (s : State) : Bool := decide (s.rx.count ≠ 0#6)

/-- `last`: the current slot's last tick (R77, R104). `tx_cnt + 1 = len` says `tx_cnt = len - 1` without a negative. -/
def slotEnds (s : State) : Bool := decide (s.tx.cnt + 1 = slotLength s.params s.tx.pos.toNat)

/-- `gph`: the trailing gap slot (R77). -/
def inGapSlot (s : State) : Bool := decide (s.tx.pos = 48#6)

/-- `due`: the wake time has come (R79). -/
def wakeDue (s : State) : Bool := decide (s.hs.wakeAt ≤ s.now)

/-- `to`: the response timeout has passed (R79). -/
def timeoutDue (s : State) : Bool := decide (s.params.tAckTo ≤ latency s)

/-- `GV[0] = in.rst` (R83). -/
def gv (s : State) : Vec := .gv (BitVec.ofBool s.input.rst)

/-- `RXDV` of the tick (R75). -/
def rxdv (s : State) : Vec :=
  .rxdv (rxVector (hasBits s) (isGap s) s.rx.started (isNoise s) (changed s))

/-- `HSDV` of the tick (R79). -/
def hsdv (s : State) : Vec :=
  .hsdv (hsVector (timeoutDue s) s.respFlag s.tx.busy (wakeDue s) s.hs.state.code)

/-- The global operation of the tick (R83). -/
def globalSelected (s : State) : Option Instr := decode (gv s)

/-- The operation RX performs in a tick with `rst = 0` (R76, R114). -/
def rxSelected (s : State) : Option Instr := decode (rxdv s)

/-- The operation HS performs in a tick with `rst = 0` (R80, R135). -/
def hsSelected (s : State) : Option Instr := decode (hsdv s)

/-- `hs_start` and `hs_clr`: 1 exactly when HS performs HS_START (R136), and 0 in a reset tick (R186). -/
def hsStartWire (s : State) : Bool := !s.input.rst && decide (hsSelected s = some .hsStart)

/-- `rx_set`: 1 exactly when RX performs RX_GAP_EMIT with 48 bits, or with any count when `ACK_ON_MALFORMED` (R127),
and 0 in a reset tick (R186). -/
def rxSetWire (s : State) : Bool :=
  !s.input.rst && decide (rxSelected s = some .rxGapEmit) &&
    (decide (s.rx.count = 48#6) || s.params.ackOnMalformed)

/-- `TXDV` of the tick (R77). -/
def txdv (s : State) : Vec := .txdv (txVector (inGapSlot s) (slotEnds s) (hsStartWire s) s.tx.busy)

/-- `FLDV` of the tick (R81). -/
def fldv (s : State) : Vec := .fldv (flagVector (hsStartWire s) (rxSetWire s))

/-- The operation TX performs in a tick with `rst = 0` (R78, R103). -/
def txSelected (s : State) : Option Instr := decode (txdv s)

/-- The operation FLAG performs in a tick with `rst = 0` (R82, R148). -/
def flagSelected (s : State) : Option Instr := decode (fldv s)

/-- Every operation the tick performs: RESET alone, or TB_TICK with one operation of each unit (R69, R83). -/
def performed (s : State) : List (Option Instr) :=
  if globalSelected s = some .reset then [globalSelected s]
  else [globalSelected s, rxSelected s, txSelected s, hsSelected s, flagSelected s]

end Sys2Proof.Machine
end

