-- ==== Sys2Proof/Machine/Arrange.lean ====
section
/-! DEFINITION. How an operation comes to be selected: the state and inputs under which a tick performs it. PWCODEC fetches no
instruction (R2, R61), so this is what "placing an instruction" means here (log entry 10). -/

namespace Sys2Proof.Machine

/-- The next tick's inputs become `i`. -/
def placeInput (s : State) (i : Input) : State :=
  { s with env := { s.env with pending := i :: s.env.pending.tail } }

/-- A tick without a transition on the response line. -/
def placeQuiet (s : State) : State :=
  placeInput s { rst := false, rxIn := s.rx.lastLevel, selFrame := Config.framePreset1 }

/-- A tick with a transition on the response line. -/
def placeEdge (s : State) : State :=
  placeInput s { rst := false, rxIn := !s.rx.lastLevel, selFrame := Config.framePreset1 }

/-- A reset tick. -/
def placeReset (s : State) : State :=
  placeInput s { rst := true, rxIn := s.rx.lastLevel, selFrame := Config.framePreset1 }

/-- The pulse now running has lasted `d` ticks. -/
def withPulse (s : State) (d : Nat) : State :=
  { s with now := max s.now d, rx := { s.rx with lastT := max s.now d - d } }

/-- The pulse now running is a frame gap. -/
def withGapPulse (s : State) : State := withPulse s (max s.params.tMin s.params.tGap)

/-- TX idle. -/
def withTxIdle (s : State) : State := { s with tx := { s.tx with busy := false, pos := 0#6, cnt := 0 } }

/-- TX sending, at tick `c` of slot `p`, and HS waiting for it. -/
def withTxAt (s : State) (p : Code6) (c : Nat) : State :=
  { s with tx := { s.tx with busy := true, pos := p, cnt := c }, hs := { s.hs with state := .send } }

/-- TX sending, in a tick that does not end a slot. -/
def withTxHolding (s : State) : State := withTxAt s (if s.params.tBit = 1 then 48#6 else 0#6) 0

/-- HS asleep until `t`, TX idle. -/
def withSleepUntil (s : State) (t : Nat) : State :=
  { withTxIdle s with hs := { s.hs with state := .sleep, wakeAt := t } }

/-- HS in WAIT since `t`, TX idle, the response flag as given. -/
def withWaitSince (s : State) (t : Nat) (flag : Bool) : State :=
  { withTxIdle s with hs := { s.hs with state := .wait, tSendDone := t }, respFlag := flag }

/-- RX holding 48 bits, the pulse now running a frame gap. -/
def withFullFrame (s : State) : State :=
  { withGapPulse s with rx := { (withGapPulse s).rx with count := 48#6, started := true } }

/-- The state in which the next tick performs `i`, changed from `s` only where `i`'s decode vector asks for it. -/
def arrange (i : Instr) (s : State) : State :=
  match i with
  | .rxIdle => placeQuiet s
  | .rxNoise => placeEdge (withPulse s 0)
  | .rxPrestart =>
    let s := withPulse s s.params.tMin
    placeEdge { s with rx := { s.rx with started := false } }
  | .rxBits =>
    let s := withPulse s s.params.tMin
    placeEdge { s with rx := { s.rx with started := true } }
  | .rxGapEmpty =>
    let s := withGapPulse s
    placeEdge { s with rx := { s.rx with count := 0#6, frame := 0#48 } }
  | .rxGapEmit => placeEdge (withFullFrame s)
  | .txIdle => placeQuiet (withSleepUntil s (s.now + 1))
  | .txLoad => placeQuiet (withSleepUntil s s.now)
  | .txHold => placeQuiet (withTxHolding s)
  | .txNext => placeQuiet (withTxAt s 0#6 (s.params.tBit - 1))
  | .txEnd => placeQuiet (withTxAt s 48#6 (s.params.tGap - 1))
  | .hsNap => placeQuiet (withSleepUntil s (s.now + 1))
  | .hsStart => placeQuiet (withSleepUntil s s.now)
  | .hsSendBusy => placeQuiet (withTxHolding s)
  | .hsSendDone => placeQuiet { withTxIdle s with hs := { s.hs with state := .send } }
  | .hsWaitPoll => placeQuiet (withWaitSince s s.now false)
  | .hsAck => placeQuiet (withWaitSince s s.now true)
  | .hsTimeout => placeQuiet { withWaitSince s s.now false with now := s.now + s.params.tAckTo }
  | .hsReserved => placeQuiet { s with hs := { s.hs with state := .reserved } }
  | .flagHold => placeQuiet (withSleepUntil s (s.now + 1))
  | .flagSet => placeEdge (withSleepUntil (withFullFrame s) ((withFullFrame s).now + 1))
  | .flagClr => placeQuiet (withSleepUntil s s.now)
  | .flagClrSet => placeEdge (withSleepUntil (withFullFrame s) (withFullFrame s).now)
  | .tbTick => placeQuiet s
  | .reset => placeReset s

end Sys2Proof.Machine
end

