-- ==== Sys2Proof/Machine/Ops.lean ====
section
/-! DEFINITION. The shared operations: the gates every meaning passes through, the write of each unit's registers, the join of
the five units' parts of a tick (R24), and the end of a tick. PWCODEC has no trap mechanism (R170), so there is no
exception entry and no return: an error condition is an event output of the operation that detects it. -/

namespace Sys2Proof.Machine

/-- The state an outcome goes on in, if it does. -/
def nextState (o : Result) : Option State :=
  match o with
  | .next t => some t
  | .fault _ => none
  | .refused _ => none

/-- Go on from an outcome: the first stop is the tick's. -/
def andThen (o : Result) (k : State → Result) : Result :=
  match o with
  | .next t => k t
  | .fault r => .fault r
  | .refused r => .refused r

/-- A parameter set that violates R11 has no meaning (R11, I11). -/
def onInstance (s : State) (o : Result) : Result :=
  if s.params.valid then o else .refused .invalidInstance

/-- A register outside its legal range has no successor (R85, R176, R185). -/
def whenLegal (legal : Bool) (o : Result) : Result :=
  if legal then o else .fault .unreachableState

/-- A timestamp register holds values below `2^TS_W`; the spec has no rule beyond (R14, R202, I13). -/
def whenInRange (s : State) (t : Nat) (o : Result) : Result :=
  if t < 2 ^ s.params.tsW then o else .refused .timestampRange

/-- `rx_count` is a legal code (R34, R85). -/
def rxLegal (r : Rx) : Bool := decide (r.count.toNat ≤ 48)

/-- `rx_last_t <= now` (R45, R47 (d)): the pulse duration is a natural (R98). -/
def rxTimeLegal (s : State) : Bool := decide (s.rx.lastT ≤ s.now)

/-- `tx_pos` and `tx_cnt` are legal (R38, R39, R85). -/
def txLegal (p : Params) (t : Tx) : Bool := decide (t.pos.toNat ≤ 48) && decide (t.cnt < slotLength p t.pos.toNat)

/-- `hs_state` is a legal code (R40, R85). -/
def hsLegal (h : Hs) : Bool := decide (h.state ≠ .reserved)

/-- `hs_t_send_done <= now` (R45, R47 (d)): the latency is a natural. -/
def hsTimeLegal (s : State) : Bool := decide (s.hs.tSendDone ≤ s.now)

/-- RX without a change: no register write, no event (R117). -/
def rxHold (s : State) : Result :=
  onInstance s (whenLegal (rxLegal s.rx) (.next (s.withRx s.rx .quiet)))

/-- The bookkeeping of every detected change (R116). -/
def rxBookkeep (s : State) (r : Rx) : Rx := { r with lastT := s.now, lastLevel := s.input.rxIn }

/-- RX on a change: the bookkeeping of R116 added to the operation's own writes, and its events. -/
def rxOnChange (s : State) (r : Rx) (o : RxOut) : Result :=
  onInstance s (whenLegal (rxLegal s.rx && rxTimeLegal s) (.next (s.withRx (rxBookkeep s r) o)))

/-- RX's registers after a frame boundary: started, and the frame and its count cleared (R120, R121). -/
def rxCleared (r : Rx) : Rx := { r with started := true, frame := 0#48, count := 0#6 }

/-- RX's registers after a data pulse: `k` bits of the held level from `rx_count` on (R122, R123). -/
def rxAccumulated (s : State) : Rx :=
  { s.rx with
    frame := frameSetRun s.rx.frame s.rx.count.toNat (acceptedBits s) s.rx.lastLevel
    count := BitVec.ofNat 6 (s.rx.count.toNat + acceptedBits s) }

/-- TX: its registers become `t`, and the line shows the pre-state's level in this tick (R50). -/
def txWrite (s : State) (t : Tx) : Result :=
  onInstance s (whenLegal (txLegal s.params s.tx) (.next (s.withTx t (txLine s.tx))))

/-- HS: its registers become `h`; `timedOut` is its strobe. -/
def hsWrite (s : State) (h : Hs) (timedOut : Bool) : Result :=
  onInstance s (whenLegal (hsLegal s.hs) (.next (s.withHs h timedOut)))

/-- HS in WAIT: as `hsWrite`, for an operation that reads the latency. -/
def hsWaitWrite (s : State) (h : Hs) (timedOut : Bool) : Result :=
  onInstance s (whenLegal (hsLegal s.hs && hsTimeLegal s) (.next (s.withHs h timedOut)))

/-- HS leaving WAIT: SLEEP until `t` (R142, R143). -/
def hsSleepUntil (s : State) (t : Nat) (timedOut : Bool) : Result :=
  onInstance s (whenLegal (hsLegal s.hs && hsTimeLegal s)
    (whenInRange s t (.next (s.withHs { s.hs with state := .sleep, wakeAt := t } timedOut))))

/-- FLAG: `resp_flag` becomes `b`. -/
def flagWrite (s : State) (b : Bool) : Result := onInstance s (.next (s.withFlag b))

/-- TB: `now` becomes `t`. -/
def nowWrite (s : State) (t : Nat) : Result := onInstance s (whenInRange s t (.next (s.withNow t)))

/-- `ResetState`: every register at the reset column of R45 and every output idle (R186). The instance and the
environment are no registers and stay. -/
def resetState (s : State) : State :=
  { params := s.params, now := 0, rx := .initial s.params, tx := .initial, hs := .initial s.params,
    respFlag := false, out := .quiet, env := s.env }

/-- The next state of a tick from the five units' parts of it, each computed from the pre-state `s` (R24, R63). -/
def joinParts (s tb rx tx hs fl : State) : State :=
  { s with
    now := tb.now, rx := rx.rx, tx := tx.tx, hs := hs.hs, respFlag := fl.respFlag
    out := { rx := rx.out.rx, txLine := tx.out.txLine, hsToEvt := hs.out.hsToEvt } }

/-- A tick with `rst = 0`: the five units side by side, all from `s` (R24). -/
def joinTick (s : State) (tb rx tx hs fl : Result) : Result :=
  andThen tb fun a => andThen rx fun b => andThen tx fun c => andThen hs fun d => andThen fl fun e =>
    .next (joinParts s a b c d e)

/-- The end of a tick: the environment moves on to the next tick's inputs (R23, R26). -/
def endTick (s : State) : State :=
  { s with env := { pending := s.env.pending.tail, ticks := s.env.ticks + 1 } }

end Sys2Proof.Machine
end

