-- ==== Sys2Proof/Machine/Global.lean ====
section
/-! DEFINITION. The operations of the global vector: TB_TICK and RESET (spec/40_bit_timing.md, spec/70_reset_and_hazards.md). -/

namespace Sys2Proof.Machine

/-- TB_TICK (R91): `now <- S.now + 1`. -/
def execTbTick (s : State) : Result := nowWrite s (s.now + 1)

/-- RESET (R186): `S' <- ResetState`, whatever the pre-state. -/
def execReset (s : State) : Result := onInstance s (.next (resetState s))

end Sys2Proof.Machine
end

