-- ==== Sys2Proof/Machine/Handshake.lean ====
section
/-! DEFINITION. The HS and FLAG operations (spec/43_handshake.md). -/

namespace Sys2Proof.Machine

/-- HS_NAP (R137): no register write. -/
def execHsNap (s : State) : Result := hsWrite s s.hs false

/-- HS_START (R138): to SEND. Its handoffs `hs_start` and `hs_clr` are `hsStartWire`. -/
def execHsStart (s : State) : Result := hsWrite s { s.hs with state := .send } false

/-- HS_SEND_BUSY (R139): no register write. -/
def execHsSendBusy (s : State) : Result := hsWrite s s.hs false

/-- HS_SEND_DONE (R140): record the send-done time and wait. -/
def execHsSendDone (s : State) : Result := hsWrite s { s.hs with state := .wait, tSendDone := s.now } false

/-- HS_WAIT_POLL (R141): no register write. -/
def execHsWaitPoll (s : State) : Result := hsWaitWrite s s.hs false

/-- HS_ACK (R142): sleep for the rounded remainder of the gap, or not at all. `resp_flag` is not cleared (R153). -/
def execHsAck (s : State) : Result := hsSleepUntil s (ackWakeAt s) false

/-- HS_TIMEOUT (R143): emit TIMEOUT and sleep for the floor. -/
def execHsTimeout (s : State) : Result := hsSleepUntil s (timeoutWakeAt s) true

/-- HS_RESERVED (R144): `fault UNREACHABLE_STATE`. -/
def execHsReserved (s : State) : Result := onInstance s (.fault .unreachableState)

/-- FLAG_HOLD (R149): `resp_flag` keeps its value. -/
def execFlagHold (s : State) : Result := flagWrite s s.respFlag

/-- FLAG_SET (R150). -/
def execFlagSet (s : State) : Result := flagWrite s true

/-- FLAG_CLR (R151). -/
def execFlagClr (s : State) : Result := flagWrite s false

/-- FLAG_CLR_SET (R152): the clear wins. -/
def execFlagClrSet (s : State) : Result := flagWrite s false

end Sys2Proof.Machine
end

