-- ==== Sys2Proof/Machine/Receiver.lean ====
section
/-! DEFINITION. The RX operations (spec/42_decoder.md). -/

namespace Sys2Proof.Machine

/-- RX_IDLE (R117): no register write. -/
def execRxIdle (s : State) : Result := rxHold s

/-- RX_NOISE (R118): the bookkeeping only. -/
def execRxNoise (s : State) : Result := rxOnChange s s.rx .quiet

/-- RX_PRESTART (R119): the bookkeeping only. -/
def execRxPrestart (s : State) : Result := rxOnChange s s.rx .quiet

/-- RX_GAP_EMPTY (R120): started, frame and count cleared, no event. -/
def execRxGapEmpty (s : State) : Result := rxOnChange s (rxCleared s.rx) .quiet

/-- RX_GAP_EMIT (R121): FRAME with the frame as it was, then as RX_GAP_EMPTY. -/
def execRxGapEmit (s : State) : Result := rxOnChange s (rxCleared s.rx) (frameEvent s.rx)

/-- RX_BITS (R122): the accepted bits folded into the frame, and OVERRUN when the pulse carries more. -/
def execRxBits (s : State) : Result :=
  rxOnChange s (rxAccumulated s) (overrunEvent (decide (acceptedBits s < pulseBits s)))

end Sys2Proof.Machine
end

