-- ==== Sys2Proof/Machine/Transmitter.lean ====
section
/-! DEFINITION. The TX operations (spec/41_encoder.md). -/

namespace Sys2Proof.Machine

/-- TX_IDLE (R105): no register write. -/
def execTxIdle (s : State) : Result := txWrite s s.tx

/-- TX_LOAD (R106): latch the outgoing frame and start slot 0. -/
def execTxLoad (s : State) : Result :=
  txWrite s { busy := true, frame := s.input.selFrame, pos := 0#6, cnt := 0 }

/-- TX_HOLD (R107): one more tick of the current slot. -/
def execTxHold (s : State) : Result := txWrite s { s.tx with cnt := s.tx.cnt + 1 }

/-- TX_NEXT (R108): the next slot. -/
def execTxNext (s : State) : Result := txWrite s { s.tx with pos := s.tx.pos + 1#6, cnt := 0 }

/-- TX_END (R109): back to idle; `tx_frame` keeps its value. -/
def execTxEnd (s : State) : Result := txWrite s { s.tx with busy := false, pos := 0#6, cnt := 0 }

end Sys2Proof.Machine
end

