-- ==== Sys2Proof/Machine/Dispatch.lean ====
section
/-! DEFINITION. The meaning of each operation, one arm per constructor of Instr. -/

namespace Sys2Proof.Machine

def exec (i : Instr) (s : State) : Host.Outcome State Fault Refusal :=
  match i with
  -- RX (R76)
  | .rxIdle => Sys2Proof.Machine.execRxIdle s
  | .rxNoise => Sys2Proof.Machine.execRxNoise s
  | .rxPrestart => Sys2Proof.Machine.execRxPrestart s
  | .rxBits => Sys2Proof.Machine.execRxBits s
  | .rxGapEmpty => Sys2Proof.Machine.execRxGapEmpty s
  | .rxGapEmit => Sys2Proof.Machine.execRxGapEmit s
  -- TX (R78)
  | .txIdle => Sys2Proof.Machine.execTxIdle s
  | .txLoad => Sys2Proof.Machine.execTxLoad s
  | .txHold => Sys2Proof.Machine.execTxHold s
  | .txNext => Sys2Proof.Machine.execTxNext s
  | .txEnd => Sys2Proof.Machine.execTxEnd s
  -- HS (R80)
  | .hsNap => Sys2Proof.Machine.execHsNap s
  | .hsStart => Sys2Proof.Machine.execHsStart s
  | .hsSendBusy => Sys2Proof.Machine.execHsSendBusy s
  | .hsSendDone => Sys2Proof.Machine.execHsSendDone s
  | .hsWaitPoll => Sys2Proof.Machine.execHsWaitPoll s
  | .hsAck => Sys2Proof.Machine.execHsAck s
  | .hsTimeout => Sys2Proof.Machine.execHsTimeout s
  | .hsReserved => Sys2Proof.Machine.execHsReserved s
  -- FLAG (R82)
  | .flagHold => Sys2Proof.Machine.execFlagHold s
  | .flagSet => Sys2Proof.Machine.execFlagSet s
  | .flagClr => Sys2Proof.Machine.execFlagClr s
  | .flagClrSet => Sys2Proof.Machine.execFlagClrSet s
  -- global (R83)
  | .tbTick => Sys2Proof.Machine.execTbTick s
  | .reset => Sys2Proof.Machine.execReset s

end Sys2Proof.Machine
end

