-- ==== Sys2Proof/Machine/Step.lean ====
section
/-! DEFINITION. One tick of the block (R24, R69): the operations the decode vectors select, all from the pre-state, joined. -/

namespace Sys2Proof.Machine

/-- Perform the operation a decode vector selected. A vector that selects none does not exist (R87). -/
def perform (sel : Option Instr) (s : State) : Result :=
  match sel with
  | some i => exec i s
  | none => .refused .noRow

/-- A tick with `rst = 0`: TB_TICK and one operation of each of RX, TX, HS and FLAG (R69). -/
def tick (s : State) : Result :=
  joinTick s (perform (globalSelected s) s) (perform (rxSelected s) s) (perform (txSelected s) s)
    (perform (hsSelected s) s) (perform (flagSelected s) s)

/-- One tick: `S' = Step(S, in)`. In a reset tick RESET replaces every unit's operation (R24, R83). -/
def step (s : State) : Host.Outcome State Fault Refusal :=
  andThen (if globalSelected s = some .reset then perform (globalSelected s) s else tick s) fun t => .next (endTick t)

/-- `s` arranged so that the next tick performs the operation the decoder reads from the table word (log entry 10). -/
def State.withFetchWord (s : State) (nbits w : Nat) : State :=
  match decodeTableWord nbits w with
  | some i => arrange i s
  | none => s

end Sys2Proof.Machine
end

