-- ==== Sys2Proof/Machine/Collaborators.lean ====
section
/-! DEFINITION. What spec/44_collaborators.md settles about the collaborators outside the block: the outgoing frames, the
classifier, and the conditions and diagnostics a collaborator derives from the event outputs. None of it feeds back into
the block (R166). -/

namespace Sys2Proof.Machine

/-- The well-known outgoing frames (R161). -/
inductive Outgoing where
  | idle | preset1 | preset2
  deriving DecidableEq, Repr

/-- The frame each selection puts on `sel_frame` (R161); two of them are OPEN parameters (D34). -/
def outgoingFrame : Outgoing → Frame
  | .idle => Config.frameIdle
  | .preset1 => Config.framePreset1
  | .preset2 => Config.framePreset2

/-- An entry matches when its compared bytes are equal: 5 of them when `ignore_last_byte`, else 6 (R163). -/
def entryMatches {ν : Type} (e : FrameDefinition ν) (F : Frame) : Bool :=
  (List.range (if e.ignoreLastByte then 5 else 6)).all fun k => decide (frameByte F k = frameByte e.pattern k)

/-- `classify`: the name of the first matching entry, or none (R163). -/
def classify {ν : Type} (table : List (FrameDefinition ν)) (F : Frame) : Option ν :=
  match table with
  | [] => none
  | e :: rest => if entryMatches e F then some e.name else classify rest F

/-- The result of the signal collaborator's `wait(timeout)`, in the tick in which it returns: true when HS_ACK occurs, false when
HS_TIMEOUT occurs (R160). -/
def waitResult (hsOperation : Option Instr) : Option Bool :=
  if hsOperation = some .hsAck then some true else if hsOperation = some .hsTimeout then some false else none

/-- The rows of R168's table. `noCondition` is its row of code 0. -/
inductive Condition where
  | noCondition | malformed | overrun | timeout | noise | prestart
  deriving DecidableEq, Repr

/-- The code column of R168, the spec's own numbers: NOISE and PRESTART have none. -/
def Condition.code : Condition → Option Nat
  | .noCondition => some 0
  | .malformed => some 1
  | .overrun => some 2
  | .timeout => some 3
  | .noise => none
  | .prestart => none

/-- The column "detected by" of R168. -/
def Condition.detectedBy : Condition → Option Instr
  | .noCondition => none
  | .malformed => some .rxGapEmit
  | .overrun => some .rxBits
  | .timeout => some .hsTimeout
  | .noise => some .rxNoise
  | .prestart => some .rxPrestart

/-- The conditions a tick reports, read from its outputs (R168, R175). NOISE and PRESTART are silent: no output shows them. -/
def conditions (o : Outputs) : List Condition :=
  (if o.rx.frmEvt && !o.rx.frmOk then [.malformed] else []) ++
  (if o.rx.ovrEvt then [.overrun] else []) ++
  (if o.hsToEvt then [.timeout] else [])

/-- The codes a tick reports (R168): those of its conditions, and 0 when there is none. -/
def conditionCodes (o : Outputs) : List Nat :=
  (if conditions o = [] then [Condition.noCondition] else conditions o).filterMap Condition.code

/-- The facts of a diagnostics line (R164); its text is the collaborator's (log entry 11). -/
inductive Diagnostic (ν : Type) where
  /-- A `RESP` line: bytes B0 to B5 and the class. -/
  | resp (bytes : List Byte) (name : Option ν)
  /-- The incomplete-frame warning, with the partial frame and its count. -/
  | incomplete (data : Frame) (bits : Code6)
  | overrun
  | noResponse
  deriving DecidableEq, Repr

/-- The diagnostics a collaborator derives from a tick's outputs (R164). Only a frame with `rx_frm_ok = 1` is
classified (R166). -/
def diagnostics {ν : Type} (table : List (FrameDefinition ν)) (o : Outputs) : List (Diagnostic ν) :=
  (if o.rx.frmEvt then
    if o.rx.frmOk then [.resp ((List.range 6).map (frameByte o.rx.frmData)) (classify table o.rx.frmData)]
    else [.incomplete o.rx.frmData o.rx.frmBits]
  else []) ++
  (if o.rx.ovrEvt then [.overrun] else []) ++
  (if o.hsToEvt then [.noResponse] else [])

end Sys2Proof.Machine
end

