-- ==== Sys2Proof/Machine/Stimulus.lean ====
section
/-! DEFINITION. The notation for stimuli (R88, R89) and the line code of one transmitted frame (R71): runs of a level. -/

namespace Sys2Proof.Machine

/-- A run: a level held for a number of ticks, `H<n>` or `L<n>` (R88). -/
abbrev Run := Bool × Nat

/-- `H<n>`. -/
def high (n : Nat) : Run := (true, n)

/-- `L<n>`. -/
def low (n : Nat) : Run := (false, n)

/-- A run put before a stimulus: consecutive equal levels merge into one run (R89). -/
def pushRun (r : Run) (rs : List Run) : List Run :=
  match rs with
  | [] => [r]
  | q :: rest => if r.1 = q.1 then (q.1, r.2 + q.2) :: rest else r :: q :: rest

/-- `FRAME(F)`: the 48 bits in slot order, each `T_BIT` ticks long, equal neighbours merged (R89). -/
def frameRuns (p : Params) (F : Frame) : List Run :=
  ((List.range 48).map fun i => (frameBit F i, p.tBit)).foldr pushRun []

/-- `GAP(n)` (R89). -/
def gapRun (n : Nat) : Run := high n

/-- The levels of a stimulus, one a tick. -/
def levelsOf (rs : List Run) : List Bool := rs.flatMap fun r => List.replicate r.2 r.1

/-- A program's inputs: the levels of its `rx:` line, a constant `sel`, and `rst = 0` throughout (R88). -/
def inputsOf (rs : List Run) (sel : Frame) : List Input :=
  (levelsOf rs).map fun b => { rst := false, rxIn := b, selFrame := sel }

/-- The level TX drives `n` ticks into a frame's 49 slots: 48 bit slots of `T_BIT` ticks, then the trailing gap (R71). -/
def lineLevel (p : Params) (F : Frame) (n : Nat) : Bool :=
  if n < 48 * p.tBit then frameBit F (n / p.tBit) else true

end Sys2Proof.Machine
end

