-- ==== Sys2Proof/Safety.lean ====
section
/-! DEFINITION. Runs, reachable states, and the invariants of R47: the terms in which claims are stated. -/

namespace Sys2Proof.Machine

/-- `n` ticks (R211): the state `S_n` of the run from `s`, or its first stop. -/
def run : Nat → State → Result
  | 0, s => .next s
  | n + 1, s => andThen (step s) (run n)

/-- No reset tick among the next `n` (R88: "`rst` is 0 in every tick"). -/
def State.NoReset (s : State) (n : Nat) : Prop := ∀ k, k < n → (s.inputAt k).rst = false

/-- The registers hold `ResetState` (R48, R186), whatever the instance, the outputs and the inputs to come. -/
def State.IsReset (s : State) : Prop :=
  s.now = 0 ∧ s.rx = .initial s.params ∧ s.tx = .initial ∧ s.hs = .initial s.params ∧ s.respFlag = false

/-- A state of some run from `ResetState` of some instance that R11 admits (R47: "reachable from reset"). -/
def State.Reachable (s : State) : Prop :=
  ∃ s₀ n, s₀.params.valid = true ∧ s₀.IsReset ∧ run n s₀ = .next s

/-- The invariants (a) to (i) of R47, over an instance that R11 admits. -/
structure State.Inv (s : State) : Prop where
  /-- R11. -/
  instanceValid : s.params.valid = true
  /-- R47 (a). -/
  countBound : s.rx.count.toNat ≤ 48
  /-- R47 (b). -/
  frameAboveCount : ∀ i, s.rx.count.toNat ≤ i → frameBit s.rx.frame i = false
  /-- R47 (c). -/
  notStarted : s.rx.started = false → s.rx.count = 0#6 ∧ s.rx.frame = 0#48
  /-- R47 (d). -/
  lastTBound : s.rx.lastT ≤ s.now
  /-- R47 (d). -/
  sendDoneBound : s.hs.tSendDone ≤ s.now
  /-- R47 (e). -/
  txIdle : s.tx.busy = false → s.tx.pos = 0#6 ∧ s.tx.cnt = 0
  /-- R47 (f). -/
  posBound : s.tx.pos.toNat ≤ 48
  /-- R47 (f). -/
  cntBound : s.tx.cnt < slotLength s.params s.tx.pos.toNat
  /-- R47 (g). -/
  notReserved : s.hs.state ≠ .reserved
  /-- R47 (h). -/
  sending : s.hs.state = .send → s.tx.busy = true ∨ hsSelected s = some .hsSendDone
  /-- R47 (i). -/
  notSending : s.hs.state = .wait ∨ s.hs.state = .sleep → s.tx.busy = false

/-- The timestamps a tick from `s` can write fit `TS_W` bits (R202): `now + 1`, and `now` plus the longer of the two
sleeps. -/
def State.TimeFits (s : State) (n : Nat) : Prop :=
  s.now + n + max (s.params.tGap + s.params.sleepRes) (s.params.tToGap + 1) < 2 ^ s.params.tsW

end Sys2Proof.Machine
end

