-- ==== Sys2Proof/Certificates/Slice0/Obligations.lean ====
section
/-! DEFINITION. The statements for the provers, from the numbered rules of spec/. `exec` says what an operation writes; the tick
in which its unit performs it is said by the `…Selected` clauses, from the decode vectors. -/

open Sys2Proof Sys2Proof.Machine

/-! ## Reset and the timebase -/

/-- `ResetState` of the default instance, register by register (R45, R48, R186), and the parameter defaults (R10). Derived: the
values the source does not give are the spec's decisions D6, D13, D22. The outputs shown before the first tick and the empty
environment are the model's (log entries 2 and 3). -/
def Obligations.ResetStateHoldsTheResetColumn : Prop :=
  State.reset.now = 0 ∧ State.reset.rx = { lastLevel := true, lastT := 0, frame := 0#48, count := 0#6, started := false } ∧
  State.reset.tx = { busy := false, frame := 0#48, pos := 0#6, cnt := 0 } ∧
  State.reset.hs = { state := .sleep, tSendDone := 0, wakeAt := 7000 } ∧ State.reset.respFlag = false ∧
  State.reset.params =
    { tickUs := 1, tBit := 104, tolPct := 35, tGap := 7000, tMin := 50, tAckTo := 40000, tToGap := 7000,
      sleepRes := 1, tsW := 64, txCntW := 13, rxInitLevel := true, ackOnMalformed := false } ∧
  State.reset.params.valid = true

/-- RESET (R186): any pre-state, illegal codes included, goes to `ResetState`. Derived: R186 is decisions D6, D13, D18, D22. -/
def Obligations.ResetOperationGivesResetState : Prop :=
  ∀ s : State, s.params.valid = true →
    exec .reset s = .next
      { s with
        now := 0
        rx := { lastLevel := s.params.rxInitLevel, lastT := 0, frame := 0#48, count := 0#6, started := false }
        tx := { busy := false, frame := 0#48, pos := 0#6, cnt := 0 }
        hs := { state := .sleep, tSendDone := 0, wakeAt := s.params.tGap }
        respFlag := false
        out := { rx := RxOut.quiet, txLine := true, hsToEvt := false } }

/-- A reset tick (R83, R186): RESET replaces every unit's operation, the handoffs are 0, the outputs are idle, the registers are
those of `ResetState`, and only the environment moves on. Derived: D18. -/
def Obligations.ResetTickReplacesEveryUnit : Prop :=
  ∀ s : State, s.params.valid = true → s.input.rst = true →
    performed s = [some .reset] ∧ hsStartWire s = false ∧ rxSetWire s = false ∧
    ∃ t, step s = .next t ∧ t.IsReset ∧ t.params = s.params ∧ t.out = Outputs.quiet ∧ ∀ k, t.inputAt k = s.inputAt (k + 1)

/-- TB_TICK (R91): `now <- S.now + 1` and nothing else, while the result fits `TS_W` bits (R202, log entry 4). -/
def Obligations.TickOperationCountsUp : Prop :=
  ∀ s : State, s.params.valid = true → s.now + 1 < 2 ^ s.params.tsW →
    exec .tbTick s = .next { s with now := s.now + 1 } ∧ (s.input.rst = false → globalSelected s = some .tbTick)

/-- Where the model has no meaning: a parameter set that violates R11 ("refused at elaboration: it has no meaning", I11), which is
refused operation by operation (log entry 7); a `now + 1` that does not fit `TS_W` bits (R202, I13), named for the whole tick since
TB's stop comes first (log entry 9); and a wake time of HS_ACK or HS_TIMEOUT that does not fit, which R202's bound covers. The exact
bound is the model's (log entry 4). Derived: D2, D15. -/
def Obligations.InvalidInstanceAndTimestampOverflowAreRefused : Prop :=
  ∀ s : State,
    (¬ (1 ≤ s.params.tBit ∧ 1 ≤ s.params.tGap ∧ 1 ≤ s.params.sleepRes ∧ 1 ≤ s.params.tickUs ∧
        max s.params.tBit s.params.tGap ≤ 2 ^ s.params.txCntW ∧ 1 ≤ s.params.tsW) →
      (∀ i, exec i s = .refused .invalidInstance) ∧ step s = .refused .invalidInstance) ∧
    (s.params.valid = true → s.input.rst = false → 2 ^ s.params.tsW ≤ s.now + 1 →
      exec .tbTick s = .refused .timestampRange ∧ step s = .refused .timestampRange) ∧
    (s.params.valid = true → s.hs.state = .wait → s.hs.tSendDone ≤ s.now →
      let lat := s.now - s.hs.tSendDone
      let wake := if lat < s.params.tGap then
        s.now + s.params.sleepRes * ((s.params.tGap - lat + s.params.sleepRes - 1) / s.params.sleepRes) else s.now
      (2 ^ s.params.tsW ≤ wake → exec .hsAck s = .refused .timestampRange ∧
        (s.input.rst = false → s.respFlag = true → ∀ t, step s ≠ .next t)) ∧
      (2 ^ s.params.tsW ≤ s.now + s.params.tToGap → exec .hsTimeout s = .refused .timestampRange ∧
        (s.input.rst = false → s.respFlag = false → s.params.tAckTo ≤ lat → ∀ t, step s ≠ .next t)))

/-! ## Decode vectors and operation maps -/

/-- R87: every value of every vector matches exactly one row of its map, and that row is the one decoded. -/
def Obligations.EveryVectorValueSelectsExactlyOneRow : Prop :=
  ∀ v : Vec, ∃ i, decode v = some i ∧ (opcodeTable.filter fun r => r.selects v).map Row.instr = [i]

/-- Decode and encode agree on every operation, and a value decodes to an operation exactly when it agrees with the encoding on
the bits the row's mask fixes (R76, R78, R80, R82, R83). -/
def Obligations.DecodeInvertsEncode : Prop :=
  ∀ i : Instr, decode (encode i) = some i ∧
    ∀ v : Vec, decode v = some i ↔ (v.format = (encode i).format ∧ v.bits &&& maskOf i = (encode i).bits)

/-- A few words written out from the maps of R76, R78, R80, R82 and R83, some with don't-care bits set. -/
def Obligations.WrittenOutWordsDecode : Prop :=
  decode (.rxdv 0b11101#5) = some .rxGapEmit ∧ decode (.rxdv 0b10111#5) = some .rxNoise ∧
  decode (.rxdv 0b10101#5) = some .rxBits ∧ decode (.txdv 0b1101#4) = some .txEnd ∧ decode (.txdv 0b0011#4) = some .txHold ∧
  decode (.hsdv 0b110110#6) = some .hsAck ∧ decode (.hsdv 0b100110#6) = some .hsTimeout ∧
  decode (.hsdv 0b000101#6) = some .hsSendDone ∧ decode (.fldv 0b11#2) = some .flagClrSet ∧ decode (.gv 0b1#1) = some .reset

/-- RX selection (R75, R76, R96): which operation RX performs, from the sampled level, the duration and RX's registers. -/
def Obligations.ReceiverOperationFollowsThePulse : Prop :=
  ∀ s : State,
    let chg := s.input.rxIn ≠ s.rx.lastLevel
    let d := s.now - s.rx.lastT
    (rxSelected s = some .rxIdle ↔ ¬ chg) ∧
    (rxSelected s = some .rxNoise ↔ chg ∧ d < s.params.tMin) ∧
    (rxSelected s = some .rxPrestart ↔ chg ∧ s.params.tMin ≤ d ∧ d < s.params.tGap ∧ s.rx.started = false) ∧
    (rxSelected s = some .rxBits ↔ chg ∧ s.params.tMin ≤ d ∧ d < s.params.tGap ∧ s.rx.started = true) ∧
    (rxSelected s = some .rxGapEmpty ↔ chg ∧ s.params.tMin ≤ d ∧ s.params.tGap ≤ d ∧ s.rx.count = 0#6) ∧
    (rxSelected s = some .rxGapEmit ↔ chg ∧ s.params.tMin ≤ d ∧ s.params.tGap ≤ d ∧ s.rx.count ≠ 0#6)

/-- TX selection (R77, R78, R104). Derived: that a start request while busy is ignored is decision D20. -/
def Obligations.TransmitterOperationFollowsTheSlot : Prop :=
  ∀ s : State,
    let ends := s.tx.cnt + 1 = slotLength s.params s.tx.pos.toNat
    (txSelected s = some .txIdle ↔ s.tx.busy = false ∧ hsStartWire s = false) ∧
    (txSelected s = some .txLoad ↔ s.tx.busy = false ∧ hsStartWire s = true) ∧
    (txSelected s = some .txHold ↔ s.tx.busy = true ∧ ¬ ends) ∧
    (txSelected s = some .txNext ↔ s.tx.busy = true ∧ ends ∧ s.tx.pos ≠ 48#6) ∧
    (txSelected s = some .txEnd ↔ s.tx.busy = true ∧ ends ∧ s.tx.pos = 48#6)

/-- HS selection (R79, R80). Derived: that the flag is tested before the timeout is decision D12. -/
def Obligations.HandshakeOperationFollowsItsState : Prop :=
  ∀ s : State,
    let late := s.params.tAckTo ≤ s.now - s.hs.tSendDone
    (hsSelected s = some .hsNap ↔ s.hs.state = .sleep ∧ s.now < s.hs.wakeAt) ∧
    (hsSelected s = some .hsStart ↔ s.hs.state = .sleep ∧ s.hs.wakeAt ≤ s.now) ∧
    (hsSelected s = some .hsSendBusy ↔ s.hs.state = .send ∧ s.tx.busy = true) ∧
    (hsSelected s = some .hsSendDone ↔ s.hs.state = .send ∧ s.tx.busy = false) ∧
    (hsSelected s = some .hsWaitPoll ↔ s.hs.state = .wait ∧ s.respFlag = false ∧ ¬ late) ∧
    (hsSelected s = some .hsAck ↔ s.hs.state = .wait ∧ s.respFlag = true) ∧
    (hsSelected s = some .hsTimeout ↔ s.hs.state = .wait ∧ s.respFlag = false ∧ late) ∧
    (hsSelected s = some .hsReserved ↔ s.hs.state = .reserved)

/-- The handoffs (R25, R127, R136): `hs_start` and `hs_clr` are 1 exactly when HS performs HS_START, which depends on its registers
alone, and `rx_set` exactly when RX performs RX_GAP_EMIT with 48 bits, or with any count when `ACK_ON_MALFORMED`. Derived:
the malformed case is decision D10. -/
def Obligations.HandoffsFollowTheOperations : Prop :=
  ∀ s : State, s.input.rst = false →
    (hsStartWire s = true ↔ hsSelected s = some .hsStart) ∧
    (hsStartWire s = true ↔ s.hs.state = .sleep ∧ s.hs.wakeAt ≤ s.now) ∧
    (rxSetWire s = true ↔
      rxSelected s = some .rxGapEmit ∧ (s.rx.count.toNat = 48 ∨ s.params.ackOnMalformed = true))

/-! ## The tick -/

/-- A tick with `rst = 0` runs the decoded operations (R24, R69): when each unit's vector decodes to an operation that goes on from
the pre-state, the tick goes on, each unit's registers and outputs are those its own operation leaves, the parameters stay, and
the inputs to come are the ones that followed. Derived: the lockstep is decisions D1, D7, D30. -/
def Obligations.TickRunsTheDecodedOperations : Prop :=
  ∀ (s a b c d e : State) (ir ix ih ig : Instr), s.input.rst = false →
    decode (rxdv s) = some ir → decode (txdv s) = some ix → decode (hsdv s) = some ih → decode (fldv s) = some ig →
    exec .tbTick s = .next a → exec ir s = .next b → exec ix s = .next c → exec ih s = .next d → exec ig s = .next e →
    performed s = [some .tbTick, some ir, some ix, some ih, some ig] ∧
    ∃ t, step s = .next t ∧ t.params = s.params ∧ t.now = a.now ∧ t.rx = b.rx ∧ t.tx = c.tx ∧ t.hs = d.hs ∧
      t.respFlag = e.respFlag ∧ t.out = { rx := b.out.rx, txLine := c.out.txLine, hsToEvt := d.out.hsToEvt } ∧
      ∀ k, t.inputAt k = s.inputAt (k + 1)

/-- Each register has one writing unit (R28, R63): what no operation of a unit changes when it goes on. Derived: D26. -/
def Obligations.EachUnitWritesItsOwnRegisters : Prop :=
  ∀ s t : State,
    (∀ i ∈ [Instr.rxIdle, .rxNoise, .rxPrestart, .rxBits, .rxGapEmpty, .rxGapEmit], exec i s = .next t →
      t = { s with rx := t.rx, out := { s.out with rx := t.out.rx } }) ∧
    (∀ i ∈ [Instr.txIdle, .txLoad, .txHold, .txNext, .txEnd], exec i s = .next t →
      t = { s with tx := t.tx, out := { s.out with txLine := t.out.txLine } }) ∧
    (∀ i ∈ [Instr.hsNap, .hsStart, .hsSendBusy, .hsSendDone, .hsWaitPoll, .hsAck, .hsTimeout], exec i s = .next t →
      t = { s with hs := t.hs, out := { s.out with hsToEvt := t.out.hsToEvt } }) ∧
    (∀ i ∈ [Instr.flagHold, .flagSet, .flagClr, .flagClrSet], exec i s = .next t → t = { s with respFlag := t.respFlag }) ∧
    (exec .tbTick s = .next t → t = { s with now := t.now }) ∧
    (exec .reset s = .next t → t.params = s.params ∧ t.env = s.env)

/-- `tx_line` is a function of the pre-state alone (R50): the current bit in a bit slot, else 1; 1 in a reset tick. Derived: the
idle level is decision D5. -/
def Obligations.TickShowsTheLineOfThePreState : Prop :=
  ∀ s t : State, step s = .next t →
    t.out.txLine = (if s.input.rst = false ∧ s.tx.busy = true ∧ s.tx.pos.toNat < 48 then frameBit s.tx.frame s.tx.pos.toNat
      else true)

/-- The event outputs (R51): each strobe exactly in the tick of the rule that emits it, its data outputs 0 otherwise. Derived:
D16. -/
def Obligations.TickStrobesExactlyItsEvents : Prop :=
  ∀ s t : State, s.input.rst = false → step s = .next t →
    (t.out.rx.frmEvt = true ↔ rxSelected s = some .rxGapEmit) ∧
    (t.out.rx.frmEvt = true → t.out.rx.frmData = s.rx.frame ∧ t.out.rx.frmBits = s.rx.count ∧
      (t.out.rx.frmOk = true ↔ s.rx.count = 48#6)) ∧
    (t.out.rx.frmEvt = false → t.out.rx.frmData = 0#48 ∧ t.out.rx.frmBits = 0#6 ∧ t.out.rx.frmOk = false) ∧
    (t.out.rx.ovrEvt = true ↔ rxSelected s = some .rxBits ∧
      48 - s.rx.count.toNat < quantize s.params (s.now - s.rx.lastT)) ∧
    (t.out.hsToEvt = true ↔ hsSelected s = some .hsTimeout)

/-- R168, R175: in one tick RX reports at most one condition, and TIMEOUT can stand beside it. -/
def Obligations.ReceiverReportsAtMostOneCondition : Prop :=
  ∀ s t : State, step s = .next t →
    conditions t.out ∈ [[], [Condition.malformed], [.overrun], [.timeout], [.malformed, .timeout], [.overrun, .timeout]]

/-! ## RX -/

/-- RX_IDLE (R117): no transition, no register write, no event. -/
def Obligations.RxIdleChangesNothing : Prop :=
  ∀ s : State, s.params.valid = true → s.rx.count.toNat ≤ 48 →
    exec .rxIdle s = .next { s with out := { s.out with rx := RxOut.quiet } } ∧
    (s.input.rst = false → s.input.rxIn = s.rx.lastLevel → rxSelected s = some .rxIdle ∧ rxSetWire s = false)

/-- RX_NOISE (R118): the bookkeeping of R116 and nothing else, started or not. -/
def Obligations.RxNoiseOnlyBookkeeps : Prop :=
  ∀ s : State, s.params.valid = true → s.rx.count.toNat ≤ 48 → s.rx.lastT ≤ s.now →
    exec .rxNoise s = .next
      { s with rx := { s.rx with lastT := s.now, lastLevel := s.input.rxIn }, out := { s.out with rx := RxOut.quiet } } ∧
    (s.input.rst = false → s.input.rxIn ≠ s.rx.lastLevel → s.now - s.rx.lastT < s.params.tMin →
      rxSelected s = some .rxNoise ∧ rxSetWire s = false)

/-- RX_PRESTART (R119): a pulse before the first frame boundary is discarded; `rx_started` stays 0. -/
def Obligations.RxPrestartDiscardsThePulse : Prop :=
  ∀ s : State, s.params.valid = true → s.rx.count.toNat ≤ 48 → s.rx.lastT ≤ s.now →
    exec .rxPrestart s = .next
      { s with rx := { s.rx with lastT := s.now, lastLevel := s.input.rxIn }, out := { s.out with rx := RxOut.quiet } } ∧
    (s.input.rst = false → s.input.rxIn ≠ s.rx.lastLevel → s.params.tMin ≤ s.now - s.rx.lastT → s.rx.started = false →
      s.now - s.rx.lastT < s.params.tGap → rxSelected s = some .rxPrestart ∧ rxSetWire s = false)

/-- RX_GAP_EMPTY (R120): a frame boundary with nothing accumulated. -/
def Obligations.RxGapEmptyStartsAccumulation : Prop :=
  ∀ s : State, s.params.valid = true → s.rx.count.toNat ≤ 48 → s.rx.lastT ≤ s.now →
    exec .rxGapEmpty s = .next
      { s with
        rx := { lastT := s.now, lastLevel := s.input.rxIn, started := true, frame := 0#48, count := 0#6 }
        out := { s.out with rx := RxOut.quiet } } ∧
    (s.input.rst = false → s.input.rxIn ≠ s.rx.lastLevel → s.params.tMin ≤ s.now - s.rx.lastT →
      s.params.tGap ≤ s.now - s.rx.lastT → s.rx.count = 0#6 → rxSelected s = some .rxGapEmpty ∧ rxSetWire s = false)

/-- RX_GAP_EMIT (R121): FRAME with the frame as it was, then the clear. -/
def Obligations.RxGapEmitPresentsTheFrame : Prop :=
  ∀ s : State, s.params.valid = true → s.rx.count.toNat ≤ 48 → s.rx.lastT ≤ s.now →
    exec .rxGapEmit s = .next
      { s with
        rx := { lastT := s.now, lastLevel := s.input.rxIn, started := true, frame := 0#48, count := 0#6 }
        out := { s.out with rx :=
          { frmEvt := true, frmData := s.rx.frame, frmBits := s.rx.count, frmOk := decide (s.rx.count.toNat = 48),
            ovrEvt := false } } } ∧
    (s.input.rst = false → s.input.rxIn ≠ s.rx.lastLevel → s.params.tMin ≤ s.now - s.rx.lastT →
      s.params.tGap ≤ s.now - s.rx.lastT → 1 ≤ s.rx.count.toNat → rxSelected s = some .rxGapEmit)

/-- RX_BITS (R122) with the quantization of R92: `k = min(Q(d), 48 - rx_count)` bits of the held level from `rx_count` on, every
other bit kept, and OVERRUN when `Q(d) > k`. -/
def Obligations.RxBitsFoldsThePulseIntoTheFrame : Prop :=
  ∀ s : State, s.params.valid = true → s.rx.count.toNat ≤ 48 → s.rx.lastT ≤ s.now →
    let nbits := ((s.now - s.rx.lastT) * 100 + s.params.tBit * s.params.tolPct) / (s.params.tBit * 100)
    let k := min nbits (48 - s.rx.count.toNat)
    (∃ t, exec .rxBits s = .next t ∧
      (∀ i, i < 48 → frameBit t.rx.frame i =
        if s.rx.count.toNat ≤ i ∧ i < s.rx.count.toNat + k then s.rx.lastLevel else frameBit s.rx.frame i) ∧
      t.rx.count.toNat = s.rx.count.toNat + k ∧ t.rx.lastT = s.now ∧ t.rx.lastLevel = s.input.rxIn ∧
      t.rx.started = s.rx.started ∧
      t.out.rx = { frmEvt := false, frmData := 0#48, frmBits := 0#6, frmOk := false, ovrEvt := decide (k < nbits) } ∧
      t = { s with rx := t.rx, out := { s.out with rx := t.out.rx } }) ∧
    (s.input.rst = false → s.input.rxIn ≠ s.rx.lastLevel → s.params.tMin ≤ s.now - s.rx.lastT → s.rx.started = true →
      s.now - s.rx.lastT < s.params.tGap → rxSelected s = some .rxBits ∧ rxSetWire s = false)

/-- The bands of the quantization rule (R92, R93): for every parameter set, and with the defaults; and "a pulse of exactly `k*T_BIT`
ticks gives `Q = k` whenever `TOL_PCT < 100`". Derived from R92. -/
def Obligations.QuantizationBands : Prop :=
  (∀ (p : Params) (d k : Nat), 1 ≤ p.tBit →
    (quantize p d = k ↔ 100 * k * p.tBit ≤ 100 * d + p.tBit * p.tolPct ∧
      100 * d + p.tBit * p.tolPct < 100 * (k + 1) * p.tBit)) ∧
  (∀ d k : Nat, 1 ≤ k → (quantize .standard d = k ↔ 104 * k - 36 ≤ d ∧ d ≤ 104 * k + 67)) ∧
  (∀ d : Nat, quantize .standard d = 0 ↔ d ≤ 67) ∧
  (∀ (p : Params) (k : Nat), 1 ≤ p.tBit → p.tolPct < 100 → quantize p (k * p.tBit) = k)

/-- `rx_started` (R35, R124): set by the first non-noise pulse of at least `T_GAP`, cleared by reset alone; while it is 0 a shorter
pulse adds no bit. -/
def Obligations.StartGateOpensAtTheFirstGap : Prop :=
  ∀ s t : State, step s = .next t →
    (s.input.rst = true → t.rx.started = false) ∧
    (s.input.rst = false →
      (t.rx.started = true ↔ s.rx.started = true ∨
        (s.input.rxIn ≠ s.rx.lastLevel ∧ s.params.tMin ≤ s.now - s.rx.lastT ∧ s.params.tGap ≤ s.now - s.rx.lastT)) ∧
      (s.rx.started = false → s.now - s.rx.lastT < s.params.tGap →
        t.rx.frame = s.rx.frame ∧ t.rx.count = s.rx.count))

/-- A quiet response line (R129, R204): while `rx_in` keeps the last sampled level, RX's registers stay and no FRAME, OVERRUN or
`rx_set` occurs, however long. -/
def Obligations.QuietLineHoldsTheReceiver : Prop :=
  ∀ (s : State) (n : Nat), s.Inv → s.NoReset (n + 1) → s.TimeFits (n + 1) →
    (∀ k, k ≤ n → (s.inputAt k).rxIn = s.rx.lastLevel) →
    ∃ t u, run n s = .next t ∧ rxSetWire t = false ∧ step t = .next u ∧ u.rx = s.rx ∧ u.out.rx = RxOut.quiet

/-- Independence of RX (R133): two runs that agree on the parameters, `now`, RX's registers, `rst` and `rx_in` have the same RX
registers and RX events after any number of ticks, whatever TX, HS, FLAG and `sel_frame` do. -/
def Obligations.ReceiverIsIndependentOfTheOtherUnits : Prop :=
  ∀ (n : Nat) (s s' t t' : State), s.params = s'.params → s.now = s'.now → s.rx = s'.rx →
    (∀ k, k < n + 1 → (s.inputAt k).rst = (s'.inputAt k).rst ∧ (s.inputAt k).rxIn = (s'.inputAt k).rxIn) →
    run (n + 1) s = .next t → run (n + 1) s' = .next t' → t.now = t'.now ∧ t.rx = t'.rx ∧ t.out.rx = t'.out.rx

/-! ## TX -/

/-- TX_IDLE (R105): no register write, and the line is 1. -/
def Obligations.TxIdleChangesNothing : Prop :=
  ∀ s : State, s.params.valid = true → s.tx.pos.toNat ≤ 48 → s.tx.cnt < slotLength s.params s.tx.pos.toNat →
    s.tx.busy = false →
    exec .txIdle s = .next { s with out := { s.out with txLine := true } } ∧
    (hsStartWire s = false → txSelected s = some .txIdle)

/-- TX_LOAD (R106): latch `in.sel_frame` and start slot 0; the line is still 1 in this tick, and bit 0 with the registers it
leaves. -/
def Obligations.TxLoadLatchesTheSelectedFrame : Prop :=
  ∀ s : State, s.params.valid = true → s.tx.pos.toNat ≤ 48 → s.tx.cnt < slotLength s.params s.tx.pos.toNat →
    s.tx.busy = false →
    exec .txLoad s = .next
      { s with
        tx := { busy := true, frame := s.input.selFrame, pos := 0#6, cnt := 0 }
        out := { s.out with txLine := true } } ∧
    txLine { busy := true, frame := s.input.selFrame, pos := 0#6, cnt := 0 } = frameBit s.input.selFrame 0 ∧
    (hsStartWire s = true → txSelected s = some .txLoad)

/-- TX_HOLD (R107): one more tick of the slot; a start request is ignored. -/
def Obligations.TxHoldCountsTheSlot : Prop :=
  ∀ s : State, s.params.valid = true → s.tx.pos.toNat ≤ 48 → s.tx.cnt < slotLength s.params s.tx.pos.toNat →
    exec .txHold s = .next
      { s with tx := { s.tx with cnt := s.tx.cnt + 1 }, out := { s.out with txLine := txLine s.tx } } ∧
    (txSelected s = some .txHold ↔ s.tx.busy = true ∧ s.tx.cnt ≠ slotLength s.params s.tx.pos.toNat - 1)

/-- TX_NEXT (R108): the next bit slot, or the trailing gap slot after bit 47. -/
def Obligations.TxNextBeginsTheNextSlot : Prop :=
  ∀ s : State, s.params.valid = true → s.tx.pos.toNat < 48 → s.tx.cnt < s.params.tBit →
    (∃ t, exec .txNext s = .next t ∧ t.tx.pos.toNat = s.tx.pos.toNat + 1 ∧ t.tx.cnt = 0 ∧ t.tx.busy = s.tx.busy ∧
      t.tx.frame = s.tx.frame ∧ t.out.txLine = txLine s.tx ∧
      t = { s with tx := t.tx, out := { s.out with txLine := t.out.txLine } }) ∧
    (s.tx.busy = true → s.tx.cnt = s.params.tBit - 1 → txSelected s = some .txNext)

/-- TX_END (R109): idle again, the line 1. Derived: that `tx_frame` keeps its value is decision D21. -/
def Obligations.TxEndReturnsToIdle : Prop :=
  ∀ s : State, s.params.valid = true → s.tx.pos = 48#6 → s.tx.cnt < s.params.tGap →
    exec .txEnd s = .next
      { s with
        tx := { busy := false, frame := s.tx.frame, pos := 0#6, cnt := 0 }
        out := { s.out with txLine := true } } ∧
    (s.tx.busy = true → s.tx.cnt = s.params.tGap - 1 → txSelected s = some .txEnd)

/-- The waveform (R71, R100 to R102, R110): from the tick after the load, `n` ticks into the frame, the line shows slot
`n / T_BIT`'s bit, then 1 for the trailing gap; TX is busy throughout, and TX_END is the last of these ticks. Derived. -/
def Obligations.TransmissionDrivesTheWaveform : Prop :=
  ∀ (s : State) (n : Nat), s.Inv → s.NoReset (n + 1) → s.TimeFits (n + 1) → hsStartWire s = true →
    n < 48 * s.params.tBit + s.params.tGap →
    ∃ t, run (n + 1) s = .next t ∧ t.tx.busy = true ∧ t.tx.frame = s.input.selFrame ∧
      txLine t.tx = lineLevel s.params s.input.selFrame n ∧
      (txSelected t = some .txEnd ↔ n + 1 = 48 * s.params.tBit + s.params.tGap) ∧ hsSelected t = some .hsSendBusy

/-- The end of a transmission (R102, R110, R140, R206): exactly `48*T_BIT + T_GAP` ticks after the load TX is idle again, the line
is 1, and the next tick performs HS_SEND_DONE. Derived. -/
def Obligations.TransmissionEndsAfterItsExactLength : Prop :=
  ∀ s : State, s.Inv → s.NoReset (48 * s.params.tBit + s.params.tGap + 1) →
    s.TimeFits (48 * s.params.tBit + s.params.tGap + 1) → hsStartWire s = true →
    ∃ t, run (48 * s.params.tBit + s.params.tGap + 1) s = .next t ∧ t.tx.busy = false ∧ txLine t.tx = true ∧
      hsSelected t = some .hsSendDone

/-- `sel_frame` is read only in the HS_START tick (R67, R197): in any other tick its value changes nothing. -/
def Obligations.SelectedFrameIsReadOnlyAtStart : Prop :=
  ∀ (s s' : State), s' = { s with env := s'.env } → s'.input = { s.input with selFrame := s'.input.selFrame } →
    hsStartWire s = false → ∀ t, step s = .next t → ∃ t', step s' = .next t' ∧ t' = { t with env := t'.env }

/-! ## HS and FLAG -/

/-- HS_NAP (R137): no register write, the handoffs 0. -/
def Obligations.HsNapChangesNothing : Prop :=
  ∀ s : State, s.params.valid = true → s.hs.state = .sleep →
    exec .hsNap s = .next { s with out := { s.out with hsToEvt := false } } ∧
    (s.now < s.hs.wakeAt → hsSelected s = some .hsNap ∧ hsStartWire s = false)

/-- HS_START (R138): to SEND, with `hs_start = hs_clr = 1`, so that in the same tick TX loads `sel_frame` and FLAG clears
`resp_flag`. -/
def Obligations.HsStartLoadsAndClears : Prop :=
  ∀ s : State, s.params.valid = true → s.hs.state = .sleep →
    exec .hsStart s = .next { s with hs := { s.hs with state := .send }, out := { s.out with hsToEvt := false } } ∧
    (s.input.rst = false → s.hs.wakeAt ≤ s.now → hsSelected s = some .hsStart ∧ hsStartWire s = true ∧
      (s.tx.busy = false → txSelected s = some .txLoad) ∧
      (flagSelected s = some .flagClr ∨ flagSelected s = some .flagClrSet))

/-- HS_SEND_BUSY (R139): no register write. -/
def Obligations.HsSendBusyChangesNothing : Prop :=
  ∀ s : State, s.params.valid = true → s.hs.state = .send →
    exec .hsSendBusy s = .next { s with out := { s.out with hsToEvt := false } } ∧
    (s.tx.busy = true → hsSelected s = some .hsSendBusy ∧ hsStartWire s = false)

/-- HS_SEND_DONE (R140): record the send-done time and wait. Derived: that the flag is not tested in this tick is D14. -/
def Obligations.HsSendDoneRecordsTheTime : Prop :=
  ∀ s : State, s.params.valid = true → s.hs.state = .send →
    exec .hsSendDone s = .next
      { s with hs := { s.hs with state := .wait, tSendDone := s.now }, out := { s.out with hsToEvt := false } } ∧
    (s.tx.busy = false → hsSelected s = some .hsSendDone ∧ hsStartWire s = false)

/-- HS_WAIT_POLL (R141): no register write. -/
def Obligations.HsWaitPollChangesNothing : Prop :=
  ∀ s : State, s.params.valid = true → s.hs.state = .wait → s.hs.tSendDone ≤ s.now →
    exec .hsWaitPoll s = .next { s with out := { s.out with hsToEvt := false } } ∧
    (s.respFlag = false → s.now - s.hs.tSendDone < s.params.tAckTo →
      hsSelected s = some .hsWaitPoll ∧ hsStartWire s = false)

/-- HS_ACK (R142): sleep for the remainder of the gap rounded up to `SLEEP_RES`, or not at all; `resp_flag` stays. -/
def Obligations.HsAckSchedulesTheGapRemainder : Prop :=
  ∀ s : State, s.params.valid = true → s.hs.state = .wait → s.hs.tSendDone ≤ s.now →
    let lat := s.now - s.hs.tSendDone
    let wake := if lat < s.params.tGap then
      s.now + s.params.sleepRes * ((s.params.tGap - lat + s.params.sleepRes - 1) / s.params.sleepRes) else s.now
    wake < 2 ^ s.params.tsW →
    exec .hsAck s = .next
      { s with hs := { s.hs with state := .sleep, wakeAt := wake }, out := { s.out with hsToEvt := false } } ∧
    (s.respFlag = true → hsSelected s = some .hsAck ∧ hsStartWire s = false)

/-- HS_TIMEOUT (R143): TIMEOUT, and sleep for the floor. Derived: that the floor counts from the timeout tick is D12. -/
def Obligations.HsTimeoutReportsAndSchedulesTheFloor : Prop :=
  ∀ s : State, s.params.valid = true → s.hs.state = .wait → s.hs.tSendDone ≤ s.now →
    s.now + s.params.tToGap < 2 ^ s.params.tsW →
    exec .hsTimeout s = .next
      { s with
        hs := { s.hs with state := .sleep, wakeAt := s.now + s.params.tToGap }
        out := { s.out with hsToEvt := true } } ∧
    (s.respFlag = false → s.params.tAckTo ≤ s.now - s.hs.tSendDone → hsSelected s = some .hsTimeout ∧ hsStartWire s = false)

/-- HS_RESERVED (R144, R85 (a)): the code 3 has no successor in a tick with `rst = 0`, and the operation is the fault. Derived:
D19. -/
def Obligations.HsReservedFaults : Prop :=
  ∀ s : State, s.params.valid = true →
    exec .hsReserved s = .fault .unreachableState ∧
    (s.hs.state = .reserved → hsSelected s = some .hsReserved ∧
      ∀ t, s.input.rst = false → step s ≠ .next t)

/-- R85 (d), R176: `rx_count` above 48, `tx_pos` above 48, and `tx_cnt` at or above its slot length fault; so do an RX change with
`rx_last_t > now` and HS in WAIT with `hs_t_send_done > now`, outside their legal range in R45 (that these fault, and where, is the
model's reading, log entry 5). That the tick's stop is this fault also where a later unit would be refused is the model's order
(log entry 9). Derived: D19. -/
def Obligations.IllegalCodesFault : Prop :=
  ∀ s : State, s.params.valid = true → s.input.rst = false → s.now + 1 < 2 ^ s.params.tsW →
    (48 < s.rx.count.toNat ∨ 48 < s.tx.pos.toNat ∨ slotLength s.params s.tx.pos.toNat ≤ s.tx.cnt ∨
      (s.input.rxIn ≠ s.rx.lastLevel ∧ s.now < s.rx.lastT) ∨ (s.hs.state = .wait ∧ s.now < s.hs.tSendDone)) →
    step s = .fault .unreachableState

/-- FLAG_HOLD, FLAG_SET and FLAG_CLR (R149, R150, R151): what each writes, and the handoffs that select it. -/
def Obligations.FlagHoldsSetsAndClears : Prop :=
  ∀ s : State, s.params.valid = true →
    (exec .flagHold s = .next s ∧
      (hsStartWire s = false → rxSetWire s = false → flagSelected s = some .flagHold)) ∧
    (exec .flagSet s = .next { s with respFlag := true } ∧
      (hsStartWire s = false → rxSetWire s = true → flagSelected s = some .flagSet)) ∧
    (exec .flagClr s = .next { s with respFlag := false } ∧
      (hsStartWire s = true → rxSetWire s = false → flagSelected s = some .flagClr))

/-- FLAG_CLR_SET (R152): the clear wins, and the FRAME event is not suppressed. Derived: decision D8. -/
def Obligations.FlagClearWinsOverSet : Prop :=
  ∀ s : State, s.params.valid = true → exec .flagClrSet s = .next { s with respFlag := false } ∧
    (hsStartWire s = true → rxSetWire s = true → flagSelected s = some .flagClrSet ∧
      ∀ t, step s = .next t → t.respFlag = false ∧ t.out.rx.frmEvt = true)

/-- The response flag is one slot that only a start clears (R153, R154, R155): a set flag stays until the next HS_START or reset,
whatever else happens, the ack included. Derived: D9. -/
def Obligations.ResponseFlagStaysUntilTheNextStart : Prop :=
  ∀ s t : State, step s = .next t → s.input.rst = false → s.respFlag = true →
    (t.respFlag = false ↔ hsSelected s = some .hsStart)

/-- After an ack (R145): HS naps until the rounded remainder of `T_GAP` has passed, or for one tick when the latency reached
`T_GAP`, and then starts; with `SLEEP_RES = 1` that is exactly `T_GAP` after the end of the transmission. Derived. -/
def Obligations.AckKeepsTheCadence : Prop :=
  ∀ (s : State) (k : Nat), s.Inv → s.hs.state = .wait → s.respFlag = true →
    let lat := s.now - s.hs.tSendDone
    let wait := if lat < s.params.tGap then ceilR s.params (s.params.tGap - lat) else 1
    s.NoReset wait → s.TimeFits wait → 1 ≤ k → k ≤ wait →
    ∃ t, run k s = .next t ∧ hsSelected t = some (if k < wait then .hsNap else .hsStart) ∧
      (k = wait → lat < s.params.tGap → s.params.sleepRes = 1 → t.now = s.hs.tSendDone + s.params.tGap)

/-- After a timeout (R145): the next HS_START is `max(T_TO_GAP, 1)` ticks later. Derived. -/
def Obligations.TimeoutKeepsTheFloor : Prop :=
  ∀ (s : State) (k : Nat), s.Inv → hsSelected s = some .hsTimeout →
    s.NoReset (max s.params.tToGap 1) → s.TimeFits (max s.params.tToGap 1) → 1 ≤ k → k ≤ max s.params.tToGap 1 →
    ∃ t, run k s = .next t ∧ hsSelected t = some (if k < max s.params.tToGap 1 then .hsNap else .hsStart)

/-- The wait is bounded (R141 to R143, R147): from WAIT, HS is asleep again at most `T_ACK_TO - lat + 1` ticks later, whatever the
response line does. Derived. -/
def Obligations.WaitEndsByTheTimeout : Prop :=
  ∀ s : State, s.Inv → s.hs.state = .wait →
    let bound := s.params.tAckTo - (s.now - s.hs.tSendDone)
    s.NoReset (bound + 1) → s.TimeFits (bound + 1) →
    ∃ k t, k ≤ bound ∧ run (k + 1) s = .next t ∧ t.hs.state = .sleep

/-- The first cycle (R187, R189): from `ResetState`, HS naps with TX idle and the line 1 until tick `T_GAP`, which performs HS_START
and TX_LOAD. Derived: the startup delay is decision D13. -/
def Obligations.FirstCycleStartsAtTGap : Prop :=
  ∀ (s : State) (n : Nat), s.params.valid = true → s.IsReset → s.NoReset (n + 1) → s.TimeFits (n + 1) → n ≤ s.params.tGap →
    ∃ t, run n s = .next t ∧ t.now = n ∧ txLine t.tx = true ∧
      hsSelected t = some (if n < s.params.tGap then .hsNap else .hsStart) ∧
      txSelected t = some (if n < s.params.tGap then .txIdle else .txLoad)

/-- A whole cycle without a response (R146, R207): with the response line quiet, the next HS_START is exactly
`48*T_BIT + T_GAP + 1 + max(T_ACK_TO, 1) + max(T_TO_GAP, 1)` ticks after this one, and no tick between performs HS_START.
Derived. -/
def Obligations.SilentCycleHasItsExactPeriod : Prop :=
  ∀ (s : State) (n : Nat), s.Inv → hsStartWire s = true →
    let period := 48 * s.params.tBit + s.params.tGap + 1 + max s.params.tAckTo 1 + max s.params.tToGap 1
    s.NoReset period → s.TimeFits period → (∀ k, k < period → (s.inputAt k).rxIn = s.rx.lastLevel) →
    1 ≤ n → n ≤ period →
    ∃ t, run n s = .next t ∧ (hsSelected t = some .hsStart ↔ n = period)

/-! ## Invariants of the machine -/

/-- `ResetState` of every admitted instance meets the invariants of R47. -/
def Obligations.ResetStateMeetsTheInvariants : Prop :=
  ∀ s : State, s.params.valid = true → s.IsReset → s.Inv

/-- Every tick, reset ticks included, keeps the invariants (a) to (i) of R47. Derived: R47 is the spec's inference. -/
def Obligations.TickKeepsTheInvariants : Prop :=
  ∀ s t : State, s.Inv → step s = .next t → t.Inv

/-- R47: every state reachable from reset satisfies (a) to (i), and its slot counter fits `TX_CNT_W` bits (R11, R39): the
corollary, over every instance and input stream, of the two statements above. -/
def Obligations.ReachableStatesMeetTheInvariants : Prop :=
  ∀ s : State, s.Reachable → s.Inv ∧ s.tx.cnt < 2 ^ s.params.txCntW

/-- No reachable state stops within the timestamp range (R144, R167, R185): `n` ticks always complete, whatever the
inputs. The exact range is the model's reading of R202 (log entry 4). -/
def Obligations.RunsNeverStopWithinTheTimestampRange : Prop :=
  ∀ (s : State) (n : Nat), s.Inv → s.TimeFits n → ∃ t, run n s = .next t

/-- R178, R203: without a reset, `now` counts the ticks, and nothing changes a parameter. -/
def Obligations.RunsCountTicksAndKeepTheParameters : Prop :=
  ∀ (s t : State) (n : Nat), run n s = .next t →
    t.params = s.params ∧ (∀ k, t.inputAt k = s.inputAt (n + k)) ∧ (s.NoReset n → t.now = s.now + n)

/-! ## Encoder and decoder together -/

/-- R54, R55, R57: frame bit `i` is bit `i & 7` of byte `i >> 3`. -/
def Obligations.FrameBitIsBitOfItsByte : Prop :=
  ∀ (F : Frame) (i : Nat), i < 48 → frameBit F i = (frameByte F (i >>> 3)).getLsbD (i &&& 7)

/-- The round trip (R132): let the response line carry, after at least `T_GAP` ticks of level 1, the waveform TX drives for a frame
`F` with `F[0] = F[47] = 0`, a trailing gap of `G >= T_GAP` ticks, and then a transition. Under the relations of R12, RX emits
exactly one FRAME event for it, in the tick of that transition, with `data = F`, `bits = 48` and `ok = 1`; no earlier tick after
the frame's first emits an event. Derived. -/
def Obligations.TransmittedFrameRoundTrips : Prop :=
  ∀ (s : State) (F : Frame) (G : Nat), s.Inv → s.params.roundTrips = true →
    frameBit F 0 = false → frameBit F 47 = false → s.params.tGap ≤ G →
    s.rx.lastLevel = true → s.params.tGap ≤ s.now - s.rx.lastT →
    s.NoReset (48 * s.params.tBit + G + 1) → s.TimeFits (48 * s.params.tBit + G + 1) →
    (∀ n, n < 48 * s.params.tBit + G → (s.inputAt n).rxIn = lineLevel s.params F n) →
    (s.inputAt (48 * s.params.tBit + G)).rxIn = false →
    (∃ t, run (48 * s.params.tBit + G + 1) s = .next t ∧
      t.out.rx = { frmEvt := true, frmData := F, frmBits := 48#6, frmOk := true, ovrEvt := false }) ∧
    ∀ n, 1 ≤ n → n < 48 * s.params.tBit + G → ∃ t, run (n + 1) s = .next t ∧ t.out.rx = RxOut.quiet

/-! ## Collaborators at the boundary -/

/-- `classify` (R163): the first entry, in order, whose compared bytes all match (5 of them when `ignore_last_byte`, else 6), or
none, whatever the type of the names. -/
def Obligations.ClassifyFindsTheFirstMatch : Prop :=
  ∀ (ν : Type) (table : List (FrameDefinition ν)) (F : Frame),
    let fits := fun e : FrameDefinition ν =>
      ∀ k, k < (if e.ignoreLastByte = true then 5 else 6) → frameByte F k = frameByte e.pattern k
    (∀ name, classify table F = some name ↔
      ∃ (before after : List (FrameDefinition ν)) (e : FrameDefinition ν),
        table = before ++ e :: after ∧ fits e ∧ e.name = name ∧ ∀ b ∈ before, ¬ fits b) ∧
    (classify table F = none ↔ ∀ e ∈ table, ¬ fits e)
end

