-- ==== Sys2Proof/Laws/Flags.lean ====
section
/-! SUPPORT. Each condition bit of the decode vectors as the relation it stands for, both when it is 1 and when it is 0. -/

namespace Sys2Proof.Machine

variable (s : State)

theorem changed_iff : changed s = true ↔ s.input.rxIn ≠ s.rx.lastLevel := by simp [changed]
theorem not_changed_iff : changed s = false ↔ s.input.rxIn = s.rx.lastLevel := by simp [changed]

theorem isNoise_iff : isNoise s = true ↔ s.now - s.rx.lastT < s.params.tMin := decide_eq_true_iff
theorem not_isNoise_iff : isNoise s = false ↔ s.params.tMin ≤ s.now - s.rx.lastT :=
  decide_eq_false_iff_not.trans Nat.not_lt

theorem isGap_iff : isGap s = true ↔ s.params.tGap ≤ s.now - s.rx.lastT := decide_eq_true_iff
theorem not_isGap_iff : isGap s = false ↔ s.now - s.rx.lastT < s.params.tGap :=
  decide_eq_false_iff_not.trans Nat.not_le

theorem hasBits_iff : hasBits s = true ↔ s.rx.count ≠ 0#6 := by simp [hasBits]
theorem not_hasBits_iff : hasBits s = false ↔ s.rx.count = 0#6 := by simp [hasBits]

theorem slotEnds_iff : slotEnds s = true ↔ s.tx.cnt + 1 = slotLength s.params s.tx.pos.toNat := decide_eq_true_iff
theorem not_slotEnds_iff : slotEnds s = false ↔ s.tx.cnt + 1 ≠ slotLength s.params s.tx.pos.toNat :=
  decide_eq_false_iff_not

theorem inGapSlot_iff : inGapSlot s = true ↔ s.tx.pos.toNat = 48 := by
  rw [inGapSlot, decide_eq_true_iff]
  exact ⟨fun h => by rw [h]; rfl, fun h => BitVec.eq_of_toNat_eq (by simpa using h)⟩

theorem not_inGapSlot_iff : inGapSlot s = false ↔ s.tx.pos.toNat ≠ 48 := by
  rw [ne_eq, ← inGapSlot_iff, Bool.not_eq_true]

theorem wakeDue_iff : wakeDue s = true ↔ s.hs.wakeAt ≤ s.now := decide_eq_true_iff
theorem not_wakeDue_iff : wakeDue s = false ↔ s.now < s.hs.wakeAt := decide_eq_false_iff_not.trans Nat.not_le

theorem timeoutDue_iff : timeoutDue s = true ↔ s.params.tAckTo ≤ s.now - s.hs.tSendDone := decide_eq_true_iff
theorem not_timeoutDue_iff : timeoutDue s = false ↔ s.now - s.hs.tSendDone < s.params.tAckTo :=
  decide_eq_false_iff_not.trans Nat.not_le

end Sys2Proof.Machine
end

