-- ==== Sys2Proof/Laws/Decode.lean ====
section
/-! SUPPORT. What the decoder answers, once per vector: the operation maps read as tests on the condition bits. -/

namespace Sys2Proof.Machine

/-- The RX map (R76) as the source's order of tests: change, noise, gap, start gate (R96). -/
theorem decode_rxVector (nz gap st noise chg : Bool) :
    decode (.rxdv (rxVector nz gap st noise chg)) =
      some (if chg = false then .rxIdle else if noise = true then .rxNoise
        else if gap = true then (if nz = true then .rxGapEmit else .rxGapEmpty)
        else if st = true then .rxBits else .rxPrestart) := by
  revert nz gap st noise chg; decide

/-- The TX map (R78): the start bit decides while idle, the slot while busy. -/
theorem decode_txVector (gph last start busy : Bool) :
    decode (.txdv (txVector gph last start busy)) =
      some (if busy = false then (if start = true then .txLoad else .txIdle)
        else if last = false then .txHold else if gph = true then .txEnd else .txNext) := by
  revert gph last start busy; decide

/-- The HS map (R80), by the state of HS; in WAIT the flag is tested before the timeout. -/
theorem decode_hsVector (late flag busy due : Bool) (st : HsState) :
    decode (.hsdv (hsVector late flag busy due st.code)) =
      some (match st with
        | .sleep => if due = true then .hsStart else .hsNap
        | .send => if busy = true then .hsSendBusy else .hsSendDone
        | .wait => if flag = true then .hsAck else if late = true then .hsTimeout else .hsWaitPoll
        | .reserved => .hsReserved) := by
  cases st <;> revert late flag busy due <;> decide

/-- The FLAG map (R82). -/
theorem decode_flagVector (clr set : Bool) :
    decode (.fldv (flagVector clr set)) =
      some (if clr = true then (if set = true then .flagClrSet else .flagClr)
        else if set = true then .flagSet else .flagHold) := by
  revert clr set; decide

/-- The global map (R83). -/
theorem decode_gv (b : Bool) : decode (.gv (BitVec.ofBool b)) = some (if b = true then .reset else .tbTick) := by
  revert b; decide

/-- The decoder answers on every value of every vector (R86, R87). -/
theorem decode_isSome (v : Vec) : (decode v).isSome = true := by
  cases v with
  | rxdv v => revert v; decide
  | txdv v => revert v; decide
  | hsdv v => revert v; decide
  | fldv v => revert v; decide
  | gv v => revert v; decide

theorem globalSelected_eq (s : State) :
    globalSelected s = some (if s.input.rst = true then .reset else .tbTick) := decode_gv _

theorem rxSelected_eq (s : State) :
    rxSelected s = some (if changed s = false then .rxIdle else if isNoise s = true then .rxNoise
        else if isGap s = true then (if hasBits s = true then .rxGapEmit else .rxGapEmpty)
        else if s.rx.started = true then .rxBits else .rxPrestart) := decode_rxVector _ _ _ _ _

theorem txSelected_eq (s : State) :
    txSelected s = some (if s.tx.busy = false then (if hsStartWire s = true then .txLoad else .txIdle)
        else if slotEnds s = false then .txHold else if inGapSlot s = true then .txEnd else .txNext) :=
  decode_txVector _ _ _ _

theorem hsSelected_eq (s : State) :
    hsSelected s = some (match s.hs.state with
        | .sleep => if wakeDue s = true then .hsStart else .hsNap
        | .send => if s.tx.busy = true then .hsSendBusy else .hsSendDone
        | .wait => if s.respFlag = true then .hsAck else if timeoutDue s = true then .hsTimeout else .hsWaitPoll
        | .reserved => .hsReserved) := decode_hsVector _ _ _ _ _

theorem flagSelected_eq (s : State) :
    flagSelected s = some (if hsStartWire s = true then (if rxSetWire s = true then .flagClrSet else .flagClr)
        else if rxSetWire s = true then .flagSet else .flagHold) := decode_flagVector _ _

/-- `hs_start` in registers: HS sleeps and its wake time has come (R136, R138). -/
theorem hsStartWire_iff (s : State) :
    hsStartWire s = true ↔ s.input.rst = false ∧ s.hs.state = .sleep ∧ s.hs.wakeAt ≤ s.now := by
  unfold hsStartWire
  rw [hsSelected_eq]
  cases h : s.hs.state <;> simp [wakeDue]
  · by_cases hb : s.tx.busy = true <;> simp [hb]
  · by_cases hf : s.respFlag = true <;> by_cases hl : timeoutDue s = true <;> simp [hf, hl]

/-- `rx_set` in registers and inputs (R127). -/
theorem rxSetWire_iff (s : State) :
    rxSetWire s = true ↔ s.input.rst = false ∧ changed s = true ∧ isNoise s = false ∧ isGap s = true ∧
      hasBits s = true ∧ (s.rx.count = 48#6 ∨ s.params.ackOnMalformed = true) := by
  unfold rxSetWire
  rw [rxSelected_eq]
  by_cases hc : changed s = true <;> by_cases hn : isNoise s = true <;> by_cases hg : isGap s = true <;>
    by_cases hb : hasBits s = true <;> by_cases hs : s.rx.started = true <;> simp [hc, hn, hg, hb, hs]

end Sys2Proof.Machine
end

