-- ==== Sys2Proof/Laws/Operands.lean ====
section
/-! SUPPORT. What the operand helpers compute: single bits, runs of bits, quantization bands and rounding. -/

namespace Sys2Proof.Machine

/-- Setting a bit changes that bit and no other (R16). -/
theorem frameBit_frameSetBit (F : Frame) (i j : Nat) (b : Bool) (hi : i < 48) :
    frameBit (frameSetBit F i b) j = if j = i then b else frameBit F j := by
  unfold frameBit frameSetBit
  by_cases hj : j < 48
  · by_cases hji : j = i
    · subst hji; cases b <;> simp [hj]
    · by_cases hlt : j < i
      · cases b <;> simp [hj, hji, hlt]
      · have h1 : j - i ≠ 0 := by omega
        cases b <;> simp [hj, hji, h1]
  · have h1 : j ≠ i := by omega
    rw [if_neg h1, BitVec.getLsbD_of_ge _ _ (by omega), BitVec.getLsbD_of_ge _ _ (by omega)]

/-- A run sets its bits and no other (R122). -/
theorem frameBit_frameSetRun (F : Frame) (i k j : Nat) (b : Bool) (h : i + k ≤ 48) :
    frameBit (frameSetRun F i k b) j = if i ≤ j ∧ j < i + k then b else frameBit F j := by
  induction k with
  | zero => simp only [frameSetRun]; rw [if_neg (by omega)]
  | succ k ih =>
    simp only [frameSetRun]
    rw [frameBit_frameSetBit _ _ _ _ (by omega), ih (by omega)]
    by_cases h1 : j = i + k
    · rw [if_pos h1, if_pos (by omega)]
    · rw [if_neg h1]
      by_cases h2 : i ≤ j ∧ j < i + k
      · rw [if_pos h2, if_pos (by omega)]
      · rw [if_neg h2, if_neg (by omega)]

/-- A frame bit beyond the frame is 0. -/
theorem frameBit_of_le (F : Frame) (i : Nat) (h : 48 ≤ i) : frameBit F i = false :=
  BitVec.getLsbD_of_ge _ _ h

/-- Two frames with the same bits are the same frame. -/
theorem frame_ext (F G : Frame) (h : ∀ i, i < 48 → frameBit F i = frameBit G i) : F = G :=
  BitVec.eq_of_getLsbD_eq fun i hi => h i hi

/-- A valid instance's divisor is positive (R92). -/
theorem valid_iff (p : Params) :
    p.valid = true ↔ 1 ≤ p.tBit ∧ 1 ≤ p.tGap ∧ 1 ≤ p.sleepRes ∧ 1 ≤ p.tickUs ∧
      max p.tBit p.tGap ≤ 2 ^ p.txCntW ∧ 1 ≤ p.tsW := by
  simp [Params.valid, and_assoc]

/-- Quantization reaches `k` at the band's lower edge (R93), without a subtraction. -/
theorem le_quantize_iff (p : Params) (d k : Nat) (h : 1 ≤ p.tBit) :
    k ≤ quantize p d ↔ 100 * k * p.tBit ≤ 100 * d + p.tBit * p.tolPct := by
  unfold quantize
  rw [Nat.le_div_iff_mul_le (by omega), show k * (p.tBit * 100) = 100 * k * p.tBit by ring, Nat.mul_comm d 100]

/-- `ceil_R` rounds up, by less than one unit (R14). -/
theorem ceilR_bounds (p : Params) (x : Nat) (h : 1 ≤ p.sleepRes) : x ≤ ceilR p x ∧ ceilR p x < x + p.sleepRes := by
  unfold ceilR
  have h1 := Nat.div_add_mod (x + p.sleepRes - 1) p.sleepRes
  have h2 := Nat.mod_lt (x + p.sleepRes - 1) (show 0 < p.sleepRes by omega)
  omega

/-- With `SLEEP_RES = 1` nothing is rounded. -/
theorem ceilR_one (p : Params) (x : Nat) (h : p.sleepRes = 1) : ceilR p x = x := by
  simp [ceilR, h]

/-- A slot lasts at least one tick in a valid instance (R11, R104). -/
theorem slotLength_pos (p : Params) (pos : Nat) (h : p.valid = true) : 1 ≤ slotLength p pos := by
  have hv := (valid_iff p).1 h
  unfold slotLength
  split <;> omega

@[simp] theorem slotLength_bit (p : Params) (pos : Nat) (h : pos < 48) : slotLength p pos = p.tBit := by
  simp [slotLength, h]

@[simp] theorem slotLength_gap (p : Params) : slotLength p 48 = p.tGap := by simp [slotLength]

end Sys2Proof.Machine
end

