-- ==== Sys2Proof/Laws/State.lean ====
section
/-! SUPPORT. One lemma per field per update of State, so that no later proof unfolds an update. -/

namespace Sys2Proof.Machine

variable (s t : State) (r : Rx) (o : RxOut) (x : Tx) (h : Hs) (b : Bool) (n : Nat)

@[simp] theorem withRx_params : (s.withRx r o).params = s.params := rfl
@[simp] theorem withRx_now : (s.withRx r o).now = s.now := rfl
@[simp] theorem withRx_rx : (s.withRx r o).rx = r := rfl
@[simp] theorem withRx_tx : (s.withRx r o).tx = s.tx := rfl
@[simp] theorem withRx_hs : (s.withRx r o).hs = s.hs := rfl
@[simp] theorem withRx_respFlag : (s.withRx r o).respFlag = s.respFlag := rfl
@[simp] theorem withRx_out_rx : (s.withRx r o).out.rx = o := rfl
@[simp] theorem withRx_out_txLine : (s.withRx r o).out.txLine = s.out.txLine := rfl
@[simp] theorem withRx_out_hsToEvt : (s.withRx r o).out.hsToEvt = s.out.hsToEvt := rfl
@[simp] theorem withRx_env : (s.withRx r o).env = s.env := rfl

@[simp] theorem withTx_params : (s.withTx x b).params = s.params := rfl
@[simp] theorem withTx_now : (s.withTx x b).now = s.now := rfl
@[simp] theorem withTx_rx : (s.withTx x b).rx = s.rx := rfl
@[simp] theorem withTx_tx : (s.withTx x b).tx = x := rfl
@[simp] theorem withTx_hs : (s.withTx x b).hs = s.hs := rfl
@[simp] theorem withTx_respFlag : (s.withTx x b).respFlag = s.respFlag := rfl
@[simp] theorem withTx_out_rx : (s.withTx x b).out.rx = s.out.rx := rfl
@[simp] theorem withTx_out_txLine : (s.withTx x b).out.txLine = b := rfl
@[simp] theorem withTx_out_hsToEvt : (s.withTx x b).out.hsToEvt = s.out.hsToEvt := rfl
@[simp] theorem withTx_env : (s.withTx x b).env = s.env := rfl

@[simp] theorem withHs_params : (s.withHs h b).params = s.params := rfl
@[simp] theorem withHs_now : (s.withHs h b).now = s.now := rfl
@[simp] theorem withHs_rx : (s.withHs h b).rx = s.rx := rfl
@[simp] theorem withHs_tx : (s.withHs h b).tx = s.tx := rfl
@[simp] theorem withHs_hs : (s.withHs h b).hs = h := rfl
@[simp] theorem withHs_respFlag : (s.withHs h b).respFlag = s.respFlag := rfl
@[simp] theorem withHs_out_rx : (s.withHs h b).out.rx = s.out.rx := rfl
@[simp] theorem withHs_out_txLine : (s.withHs h b).out.txLine = s.out.txLine := rfl
@[simp] theorem withHs_out_hsToEvt : (s.withHs h b).out.hsToEvt = b := rfl
@[simp] theorem withHs_env : (s.withHs h b).env = s.env := rfl

@[simp] theorem withFlag_params : (s.withFlag b).params = s.params := rfl
@[simp] theorem withFlag_now : (s.withFlag b).now = s.now := rfl
@[simp] theorem withFlag_rx : (s.withFlag b).rx = s.rx := rfl
@[simp] theorem withFlag_tx : (s.withFlag b).tx = s.tx := rfl
@[simp] theorem withFlag_hs : (s.withFlag b).hs = s.hs := rfl
@[simp] theorem withFlag_respFlag : (s.withFlag b).respFlag = b := rfl
@[simp] theorem withFlag_out : (s.withFlag b).out = s.out := rfl
@[simp] theorem withFlag_env : (s.withFlag b).env = s.env := rfl

@[simp] theorem withNow_params : (s.withNow n).params = s.params := rfl
@[simp] theorem withNow_now : (s.withNow n).now = n := rfl
@[simp] theorem withNow_rx : (s.withNow n).rx = s.rx := rfl
@[simp] theorem withNow_tx : (s.withNow n).tx = s.tx := rfl
@[simp] theorem withNow_hs : (s.withNow n).hs = s.hs := rfl
@[simp] theorem withNow_respFlag : (s.withNow n).respFlag = s.respFlag := rfl
@[simp] theorem withNow_out : (s.withNow n).out = s.out := rfl
@[simp] theorem withNow_env : (s.withNow n).env = s.env := rfl

@[simp] theorem resetState_params : (resetState s).params = s.params := rfl
@[simp] theorem resetState_now : (resetState s).now = 0 := rfl
@[simp] theorem resetState_rx : (resetState s).rx = .initial s.params := rfl
@[simp] theorem resetState_tx : (resetState s).tx = .initial := rfl
@[simp] theorem resetState_hs : (resetState s).hs = .initial s.params := rfl
@[simp] theorem resetState_respFlag : (resetState s).respFlag = false := rfl
@[simp] theorem resetState_out : (resetState s).out = .quiet := rfl
@[simp] theorem resetState_env : (resetState s).env = s.env := rfl

@[simp] theorem endTick_params : (endTick s).params = s.params := rfl
@[simp] theorem endTick_now : (endTick s).now = s.now := rfl
@[simp] theorem endTick_rx : (endTick s).rx = s.rx := rfl
@[simp] theorem endTick_tx : (endTick s).tx = s.tx := rfl
@[simp] theorem endTick_hs : (endTick s).hs = s.hs := rfl
@[simp] theorem endTick_respFlag : (endTick s).respFlag = s.respFlag := rfl
@[simp] theorem endTick_out : (endTick s).out = s.out := rfl
@[simp] theorem endTick_pending : (endTick s).env.pending = s.env.pending.tail := rfl
@[simp] theorem endTick_ticks : (endTick s).env.ticks = s.env.ticks + 1 := rfl

/-- The inputs of a tick depend on the environment alone. -/
theorem inputAt_congr (h : s.env = t.env) (k : Nat) : s.inputAt k = t.inputAt k := by
  simp [State.inputAt, h]

/-- After a tick the coming inputs are the ones that followed. -/
theorem inputAt_of_endTick (h : t.env = (endTick s).env) (k : Nat) : t.inputAt k = s.inputAt (k + 1) := by
  unfold State.inputAt
  rw [h, endTick_pending, endTick_ticks, List.getElem?_tail]
  congr 2
  omega

@[simp] theorem placeInput_input (i : Input) : (placeInput s i).input = i := rfl

end Sys2Proof.Machine
end

