-- ==== Sys2Proof/Laws/Ops.lean ====
section
/-! SUPPORT. What each shared operation can do: when it goes on, and in which state. -/

namespace Sys2Proof.Machine

@[simp] theorem andThen_next (t : State) (k : State → Result) : andThen (.next t) k = k t := rfl

/-- An outcome that goes on came from one that went on. -/
theorem andThen_eq_next {o : Result} {k : State → Result} {u : State} :
    andThen o k = .next u ↔ ∃ t, o = .next t ∧ k t = .next u := by
  cases o <;> simp [andThen]

/-- An operation goes on only in an instance that R11 admits. -/
theorem onInstance_eq_next {s t : State} {o : Result} :
    onInstance s o = .next t ↔ s.params.valid = true ∧ o = .next t := by
  unfold onInstance; split <;> simp [*]

/-- An operation goes on only from legal registers. -/
theorem whenLegal_eq_next {b : Bool} {o : Result} {t : State} :
    whenLegal b o = .next t ↔ b = true ∧ o = .next t := by
  cases b <;> simp [whenLegal]

/-- A timestamp is written only when it fits. -/
theorem whenInRange_eq_next {s t : State} {n : Nat} {o : Result} :
    whenInRange s n o = .next t ↔ n < 2 ^ s.params.tsW ∧ o = .next t := by
  unfold whenInRange; split <;> simp [*]

/-- An illegal register stops the operation with the spec's one fault. -/
theorem whenLegal_of_illegal {b : Bool} (o : Result) (h : b = false) :
    whenLegal b o = .fault .unreachableState := by
  simp [whenLegal, h]

theorem whenLegal_of_legal {b : Bool} (o : Result) (h : b = true) : whenLegal b o = o := by simp [whenLegal, h]

theorem onInstance_of_valid {s : State} (o : Result) (h : s.params.valid = true) : onInstance s o = o := by
  simp [onInstance, h]

theorem onInstance_of_invalid {s : State} (o : Result) (h : s.params.valid = false) :
    onInstance s o = .refused .invalidInstance := by
  simp [onInstance, h]

theorem rxLegal_iff (r : Rx) : rxLegal r = true ↔ r.count.toNat ≤ 48 := decide_eq_true_iff

theorem rxTimeLegal_iff (s : State) : rxTimeLegal s = true ↔ s.rx.lastT ≤ s.now := decide_eq_true_iff

theorem txLegal_iff (p : Params) (t : Tx) :
    txLegal p t = true ↔ t.pos.toNat ≤ 48 ∧ t.cnt < slotLength p t.pos.toNat := by
  simp [txLegal]

theorem hsLegal_iff (h : Hs) : hsLegal h = true ↔ h.state ≠ .reserved := by simp [hsLegal]

theorem hsTimeLegal_iff (s : State) : hsTimeLegal s = true ↔ s.hs.tSendDone ≤ s.now := decide_eq_true_iff

theorem rxHold_eq_next {s t : State} :
    rxHold s = .next t ↔ s.params.valid = true ∧ s.rx.count.toNat ≤ 48 ∧ t = s.withRx s.rx .quiet := by
  simp [rxHold, onInstance_eq_next, whenLegal_eq_next, rxLegal, @eq_comm _ t]

theorem rxOnChange_eq_next {s t : State} {r : Rx} {o : RxOut} :
    rxOnChange s r o = .next t ↔
      s.params.valid = true ∧ s.rx.count.toNat ≤ 48 ∧ s.rx.lastT ≤ s.now ∧ t = s.withRx (rxBookkeep s r) o := by
  simp [rxOnChange, onInstance_eq_next, whenLegal_eq_next, rxLegal, rxTimeLegal, and_assoc, @eq_comm _ t]

theorem txWrite_eq_next {s t : State} {x : Tx} :
    txWrite s x = .next t ↔
      s.params.valid = true ∧ s.tx.pos.toNat ≤ 48 ∧ s.tx.cnt < slotLength s.params s.tx.pos.toNat ∧
        t = s.withTx x (txLine s.tx) := by
  simp [txWrite, onInstance_eq_next, whenLegal_eq_next, txLegal, and_assoc, @eq_comm _ t]

theorem hsWrite_eq_next {s t : State} {h : Hs} {b : Bool} :
    hsWrite s h b = .next t ↔ s.params.valid = true ∧ s.hs.state ≠ .reserved ∧ t = s.withHs h b := by
  simp [hsWrite, onInstance_eq_next, whenLegal_eq_next, hsLegal, @eq_comm _ t]

theorem hsWaitWrite_eq_next {s t : State} {h : Hs} {b : Bool} :
    hsWaitWrite s h b = .next t ↔
      s.params.valid = true ∧ s.hs.state ≠ .reserved ∧ s.hs.tSendDone ≤ s.now ∧ t = s.withHs h b := by
  simp [hsWaitWrite, onInstance_eq_next, whenLegal_eq_next, hsLegal, hsTimeLegal, and_assoc, @eq_comm _ t]

theorem hsSleepUntil_eq_next {s t : State} {n : Nat} {b : Bool} :
    hsSleepUntil s n b = .next t ↔
      s.params.valid = true ∧ s.hs.state ≠ .reserved ∧ s.hs.tSendDone ≤ s.now ∧ n < 2 ^ s.params.tsW ∧
        t = s.withHs { s.hs with state := .sleep, wakeAt := n } b := by
  simp [hsSleepUntil, onInstance_eq_next, whenLegal_eq_next, whenInRange_eq_next, hsLegal, hsTimeLegal, and_assoc,
    @eq_comm _ t]

theorem flagWrite_eq_next {s t : State} {b : Bool} :
    flagWrite s b = .next t ↔ s.params.valid = true ∧ t = s.withFlag b := by
  simp [flagWrite, onInstance_eq_next, @eq_comm _ t]

theorem nowWrite_eq_next {s t : State} {n : Nat} :
    nowWrite s n = .next t ↔ s.params.valid = true ∧ n < 2 ^ s.params.tsW ∧ t = s.withNow n := by
  simp [nowWrite, onInstance_eq_next, whenInRange_eq_next, @eq_comm _ t]

theorem execReset_eq_next {s t : State} :
    execReset s = .next t ↔ s.params.valid = true ∧ t = resetState s := by
  simp [execReset, onInstance_eq_next, @eq_comm _ t]

/-- A tick goes on exactly when every unit does, in the join of their parts. -/
theorem joinTick_eq_next {s u : State} {tb rx tx hs fl : Result} :
    joinTick s tb rx tx hs fl = .next u ↔
      ∃ a b c d e, tb = .next a ∧ rx = .next b ∧ tx = .next c ∧ hs = .next d ∧ fl = .next e ∧
        u = joinParts s a b c d e := by
  simp only [joinTick, andThen_eq_next, Host.Outcome.next.injEq]
  constructor
  · rintro ⟨a, ha, b, hb, c, hc, d, hd, e, he, h⟩
    exact ⟨a, b, c, d, e, ha, hb, hc, hd, he, h.symm⟩
  · rintro ⟨a, b, c, d, e, ha, hb, hc, hd, he, h⟩
    exact ⟨a, ha, b, hb, c, hc, d, hd, e, he, h.symm⟩

end Sys2Proof.Machine
end

