-- ==== Sys2Proof/Laws/PerInstr.lean ====
section
/-! SUPPORT. One lemma per operation: the operation table holds exactly one row for it, and that row is its encoding. -/

namespace Sys2Proof.Laws.OneRow

/-- The table has exactly one row for `i` (R90), in the vector of `i`'s encoding; the row's match value is the encoding, has no
bit outside the row's mask, and the mask has no bit outside the vector. -/
def Statement (i : Sys2Proof.Instr) : Prop :=
  ∃ r, opcodeTable.filter (fun r => decide (r.instr = i)) = [r] ∧ r.format = (encode i).format ∧
    r.pattern = (encode i).bits ∧ r.pattern &&& r.mask = r.pattern ∧ r.mask < 2 ^ r.format.width

/-- A row is `i`'s when the table's rows for `i` are that row alone and it agrees with the encoding. -/
theorem of_row {i : Sys2Proof.Instr} (r : Row)
    (h : opcodeTable.filter (fun r => decide (r.instr = i)) = [r])
    (hr : r.format = (encode i).format ∧ r.pattern = (encode i).bits ∧ r.pattern &&& r.mask = r.pattern ∧
      r.mask < 2 ^ r.format.width) : Statement i := ⟨r, h, hr⟩

theorem rxIdle : Statement .rxIdle :=
  of_row ⟨.rxIdle, .rxdv, 0b00000, 0b00001⟩ (by decide) (by decide)

theorem rxNoise : Statement .rxNoise :=
  of_row ⟨.rxNoise, .rxdv, 0b00011, 0b00011⟩ (by decide) (by decide)

theorem rxPrestart : Statement .rxPrestart :=
  of_row ⟨.rxPrestart, .rxdv, 0b00001, 0b01111⟩ (by decide) (by decide)

theorem rxBits : Statement .rxBits :=
  of_row ⟨.rxBits, .rxdv, 0b00101, 0b01111⟩ (by decide) (by decide)

theorem rxGapEmpty : Statement .rxGapEmpty :=
  of_row ⟨.rxGapEmpty, .rxdv, 0b01001, 0b11011⟩ (by decide) (by decide)

theorem rxGapEmit : Statement .rxGapEmit :=
  of_row ⟨.rxGapEmit, .rxdv, 0b11001, 0b11011⟩ (by decide) (by decide)

theorem txIdle : Statement .txIdle :=
  of_row ⟨.txIdle, .txdv, 0b0000, 0b0011⟩ (by decide) (by decide)

theorem txLoad : Statement .txLoad :=
  of_row ⟨.txLoad, .txdv, 0b0010, 0b0011⟩ (by decide) (by decide)

theorem txHold : Statement .txHold :=
  of_row ⟨.txHold, .txdv, 0b0001, 0b0101⟩ (by decide) (by decide)

theorem txNext : Statement .txNext :=
  of_row ⟨.txNext, .txdv, 0b0101, 0b1101⟩ (by decide) (by decide)

theorem txEnd : Statement .txEnd :=
  of_row ⟨.txEnd, .txdv, 0b1101, 0b1101⟩ (by decide) (by decide)

theorem hsNap : Statement .hsNap :=
  of_row ⟨.hsNap, .hsdv, 0b000000, 0b000111⟩ (by decide) (by decide)

theorem hsStart : Statement .hsStart :=
  of_row ⟨.hsStart, .hsdv, 0b000100, 0b000111⟩ (by decide) (by decide)

theorem hsSendBusy : Statement .hsSendBusy :=
  of_row ⟨.hsSendBusy, .hsdv, 0b001001, 0b001011⟩ (by decide) (by decide)

theorem hsSendDone : Statement .hsSendDone :=
  of_row ⟨.hsSendDone, .hsdv, 0b000001, 0b001011⟩ (by decide) (by decide)

theorem hsWaitPoll : Statement .hsWaitPoll :=
  of_row ⟨.hsWaitPoll, .hsdv, 0b000010, 0b110011⟩ (by decide) (by decide)

theorem hsAck : Statement .hsAck :=
  of_row ⟨.hsAck, .hsdv, 0b010010, 0b010011⟩ (by decide) (by decide)

theorem hsTimeout : Statement .hsTimeout :=
  of_row ⟨.hsTimeout, .hsdv, 0b100010, 0b110011⟩ (by decide) (by decide)

theorem hsReserved : Statement .hsReserved :=
  of_row ⟨.hsReserved, .hsdv, 0b000011, 0b000011⟩ (by decide) (by decide)

theorem flagHold : Statement .flagHold :=
  of_row ⟨.flagHold, .fldv, 0b00, 0b11⟩ (by decide) (by decide)

theorem flagSet : Statement .flagSet :=
  of_row ⟨.flagSet, .fldv, 0b01, 0b11⟩ (by decide) (by decide)

theorem flagClr : Statement .flagClr :=
  of_row ⟨.flagClr, .fldv, 0b10, 0b11⟩ (by decide) (by decide)

theorem flagClrSet : Statement .flagClrSet :=
  of_row ⟨.flagClrSet, .fldv, 0b11, 0b11⟩ (by decide) (by decide)

theorem tbTick : Statement .tbTick :=
  of_row ⟨.tbTick, .gv, 0b0, 0b1⟩ (by decide) (by decide)

theorem reset : Statement .reset :=
  of_row ⟨.reset, .gv, 0b1, 0b1⟩ (by decide) (by decide)

end Sys2Proof.Laws.OneRow
end

