-- ==== Sys2Proof/Laws/Step.lean ====
section
/-! SUPPORT. What a tick can do, said once: each unit's next registers as a function of the pre-state, when a tick goes on,
and the state it goes on in. -/

namespace Sys2Proof.Machine

/-- RX's next registers (R76, R117 to R122). -/
def rxNext (s : State) : Rx :=
  if changed s = false then s.rx
  else rxBookkeep s
    (if isNoise s = true then s.rx else if isGap s = true then rxCleared s.rx
      else if s.rx.started = true then rxAccumulated s else s.rx)

/-- RX's event outputs (R51). -/
def rxEvents (s : State) : RxOut :=
  if changed s = false ∨ isNoise s = true then .quiet
  else if isGap s = true then (if hasBits s = true then frameEvent s.rx else .quiet)
  else if s.rx.started = true then overrunEvent (decide (acceptedBits s < pulseBits s)) else .quiet

/-- TX's next registers (R78, R105 to R109). -/
def txNext (s : State) : Tx :=
  if s.tx.busy = false then
    (if hsStartWire s = true then { busy := true, frame := s.input.selFrame, pos := 0#6, cnt := 0 } else s.tx)
  else if slotEnds s = false then { s.tx with cnt := s.tx.cnt + 1 }
  else if inGapSlot s = true then { s.tx with busy := false, pos := 0#6, cnt := 0 }
  else { s.tx with pos := s.tx.pos + 1#6, cnt := 0 }

/-- HS's next registers (R80, R137 to R143). -/
def hsNext (s : State) : Hs :=
  match s.hs.state with
  | .sleep => if wakeDue s = true then { s.hs with state := .send } else s.hs
  | .send => if s.tx.busy = true then s.hs else { s.hs with state := .wait, tSendDone := s.now }
  | .wait =>
    if s.respFlag = true then { s.hs with state := .sleep, wakeAt := ackWakeAt s }
    else if timeoutDue s = true then { s.hs with state := .sleep, wakeAt := timeoutWakeAt s }
    else s.hs
  | .reserved => s.hs

/-- `hs_to_evt` (R51, R143). -/
def timedOut (s : State) : Bool :=
  decide (s.hs.state = .wait) && !s.respFlag && timeoutDue s

/-- FLAG's next register (R82, R149 to R152): the clear wins. -/
def flagNext (s : State) : Bool :=
  if hsStartWire s = true then false else if rxSetWire s = true then true else s.respFlag

/-- The state after a tick with `rst = 0`. -/
def tickState (s : State) : State :=
  { params := s.params, now := s.now + 1, rx := rxNext s, tx := txNext s, hs := hsNext s, respFlag := flagNext s
    out := { rx := rxEvents s, txLine := txLine s.tx, hsToEvt := timedOut s }
    env := (endTick s).env }

@[simp] theorem tickState_params (s : State) : (tickState s).params = s.params := rfl
@[simp] theorem tickState_now (s : State) : (tickState s).now = s.now + 1 := rfl
@[simp] theorem tickState_rx (s : State) : (tickState s).rx = rxNext s := rfl
@[simp] theorem tickState_tx (s : State) : (tickState s).tx = txNext s := rfl
@[simp] theorem tickState_hs (s : State) : (tickState s).hs = hsNext s := rfl
@[simp] theorem tickState_respFlag (s : State) : (tickState s).respFlag = flagNext s := rfl
@[simp] theorem tickState_out_rx (s : State) : (tickState s).out.rx = rxEvents s := rfl
@[simp] theorem tickState_out_txLine (s : State) : (tickState s).out.txLine = txLine s.tx := rfl
@[simp] theorem tickState_out_hsToEvt (s : State) : (tickState s).out.hsToEvt = timedOut s := rfl

/-- The coming inputs after a tick. -/
@[simp] theorem tickState_inputAt (s : State) (k : Nat) : (tickState s).inputAt k = s.inputAt (k + 1) :=
  inputAt_of_endTick s (tickState s) rfl k

/-- When a tick with `rst = 0` goes on: an admitted instance, legal registers, and timestamps that fit. -/
structure TickOk (s : State) : Prop where
  instanceValid : s.params.valid = true
  nowFits : s.now + 1 < 2 ^ s.params.tsW
  countLegal : s.rx.count.toNat ≤ 48
  lastTLegal : changed s = true → s.rx.lastT ≤ s.now
  posLegal : s.tx.pos.toNat ≤ 48
  cntLegal : s.tx.cnt < slotLength s.params s.tx.pos.toNat
  stateLegal : s.hs.state ≠ .reserved
  sendDoneLegal : s.hs.state = .wait → s.hs.tSendDone ≤ s.now
  ackFits : s.hs.state = .wait → s.respFlag = true → ackWakeAt s < 2 ^ s.params.tsW
  timeoutFits : s.hs.state = .wait → s.respFlag = false → timeoutDue s = true →
    timeoutWakeAt s < 2 ^ s.params.tsW

theorem perform_global {s t : State} (hr : s.input.rst = false) :
    perform (globalSelected s) s = .next t ↔
      s.params.valid = true ∧ s.now + 1 < 2 ^ s.params.tsW ∧ t = s.withNow (s.now + 1) := by
  rw [globalSelected_eq, hr]
  exact nowWrite_eq_next

theorem perform_rx {s t : State} :
    perform (rxSelected s) s = .next t ↔
      s.params.valid = true ∧ s.rx.count.toNat ≤ 48 ∧ (changed s = true → s.rx.lastT ≤ s.now) ∧
        t = s.withRx (rxNext s) (rxEvents s) := by
  rw [rxSelected_eq]
  by_cases hc : changed s = true
  · by_cases hn : isNoise s = true
    · simp [hc, hn, perform, exec, execRxNoise, rxOnChange_eq_next, rxNext, rxEvents]
    · by_cases hg : isGap s = true
      · by_cases hb : hasBits s = true
        · simp [hc, hn, hg, hb, perform, exec, execRxGapEmit, rxOnChange_eq_next, rxNext, rxEvents]
        · simp [hc, hn, hg, hb, perform, exec, execRxGapEmpty, rxOnChange_eq_next, rxNext, rxEvents]
      · by_cases hs : s.rx.started = true
        · simp [hc, hn, hg, hs, perform, exec, execRxBits, rxOnChange_eq_next, rxNext, rxEvents]
        · simp [hc, hn, hg, hs, perform, exec, execRxPrestart, rxOnChange_eq_next, rxNext, rxEvents]
  · simp [hc, perform, exec, execRxIdle, rxHold_eq_next, rxNext, rxEvents]

theorem perform_tx {s t : State} :
    perform (txSelected s) s = .next t ↔
      s.params.valid = true ∧ s.tx.pos.toNat ≤ 48 ∧ s.tx.cnt < slotLength s.params s.tx.pos.toNat ∧
        t = s.withTx (txNext s) (txLine s.tx) := by
  rw [txSelected_eq]
  by_cases hb : s.tx.busy = true
  · by_cases hl : slotEnds s = true
    · by_cases hg : inGapSlot s = true
      · simp [hb, hl, hg, perform, exec, execTxEnd, txWrite_eq_next, txNext]
      · simp [hb, hl, hg, perform, exec, execTxNext, txWrite_eq_next, txNext]
    · simp [hb, hl, perform, exec, execTxHold, txWrite_eq_next, txNext]
  · by_cases hs : hsStartWire s = true
    · simp [hb, hs, perform, exec, execTxLoad, txWrite_eq_next, txNext]
    · simp [hb, hs, perform, exec, execTxIdle, txWrite_eq_next, txNext]

theorem perform_hs {s t : State} :
    perform (hsSelected s) s = .next t ↔
      s.params.valid = true ∧ s.hs.state ≠ .reserved ∧ (s.hs.state = .wait → s.hs.tSendDone ≤ s.now) ∧
        (s.hs.state = .wait → s.respFlag = true → ackWakeAt s < 2 ^ s.params.tsW) ∧
        (s.hs.state = .wait → s.respFlag = false → timeoutDue s = true → timeoutWakeAt s < 2 ^ s.params.tsW) ∧
        t = s.withHs (hsNext s) (timedOut s) := by
  rw [hsSelected_eq]
  cases hst : s.hs.state with
  | sleep =>
    by_cases hd : wakeDue s = true
    · simp [hst, hd, perform, exec, execHsStart, hsWrite_eq_next, hsNext, timedOut]
    · simp [hst, hd, perform, exec, execHsNap, hsWrite_eq_next, hsNext, timedOut]
  | send =>
    by_cases hb : s.tx.busy = true
    · simp [hst, hb, perform, exec, execHsSendBusy, hsWrite_eq_next, hsNext, timedOut]
    · simp [hst, hb, perform, exec, execHsSendDone, hsWrite_eq_next, hsNext, timedOut]
  | wait =>
    by_cases hf : s.respFlag = true
    · simp [hst, hf, perform, exec, execHsAck, hsSleepUntil_eq_next, hsNext, timedOut]
    · by_cases hl : timeoutDue s = true
      · simp [hst, hf, hl, perform, exec, execHsTimeout, hsSleepUntil_eq_next, hsNext, timedOut]
      · simp [hst, hf, hl, perform, exec, execHsWaitPoll, hsWaitWrite_eq_next, hsNext, timedOut]
  | reserved => simp [perform, exec, execHsReserved, onInstance_eq_next]

theorem perform_flag {s t : State} :
    perform (flagSelected s) s = .next t ↔ s.params.valid = true ∧ t = s.withFlag (flagNext s) := by
  rw [flagSelected_eq]
  by_cases hc : hsStartWire s = true <;> by_cases hs : rxSetWire s = true <;>
    simp [hc, hs, perform, exec, execFlagClrSet, execFlagClr, execFlagSet, execFlagHold, flagWrite_eq_next, flagNext]

/-- A tick with `rst = 0` goes on exactly when `TickOk` holds, in `tickState`. -/
theorem step_tick {s t : State} (hr : s.input.rst = false) : step s = .next t ↔ TickOk s ∧ t = tickState s := by
  have hg : globalSelected s ≠ some .reset := by rw [globalSelected_eq, hr]; decide
  simp only [step, if_neg hg, tick, andThen_eq_next, joinTick_eq_next, perform_global hr, perform_rx, perform_tx,
    perform_hs, perform_flag, Host.Outcome.next.injEq]
  constructor
  · rintro ⟨u, ⟨a, b, c, d, e, ⟨hv, hn, rfl⟩, ⟨-, h1, h2, rfl⟩, ⟨-, h3, h4, rfl⟩, ⟨-, h5, h6, h7, h8, rfl⟩,
      ⟨-, rfl⟩, rfl⟩, rfl⟩
    exact ⟨⟨hv, hn, h1, h2, h3, h4, h5, h6, h7, h8⟩, rfl⟩
  · rintro ⟨h, rfl⟩
    exact ⟨_, ⟨_, _, _, _, _, ⟨h.1, h.2, rfl⟩, ⟨h.1, h.3, h.4, rfl⟩, ⟨h.1, h.5, h.6, rfl⟩,
      ⟨h.1, h.7, h.8, h.9, h.10, rfl⟩, ⟨h.1, rfl⟩, rfl⟩, rfl⟩

/-- A reset tick goes on in every admitted instance, in `ResetState`. -/
theorem step_reset {s t : State} (hr : s.input.rst = true) :
    step s = .next t ↔ s.params.valid = true ∧ t = endTick (resetState s) := by
  have hg : globalSelected s = some .reset := by rw [globalSelected_eq, hr]; rfl
  simp only [step, hg, if_true, perform, exec, andThen_eq_next, execReset_eq_next, Host.Outcome.next.injEq]
  constructor
  · rintro ⟨u, ⟨hv, rfl⟩, rfl⟩; exact ⟨hv, rfl⟩
  · rintro ⟨hv, rfl⟩; exact ⟨_, ⟨hv, rfl⟩, rfl⟩

/-- A run of `n + 1` ticks is a tick and a run of `n`. -/
theorem run_succ_eq_next {n : Nat} {s u : State} :
    run (n + 1) s = .next u ↔ ∃ t, step s = .next t ∧ run n t = .next u := andThen_eq_next

/-- A run of `m + n` ticks is a run of `m` and a run of `n`. -/
theorem run_add_eq_next {m n : Nat} {s u : State} :
    run (m + n) s = .next u ↔ ∃ t, run m s = .next t ∧ run n t = .next u := by
  induction m generalizing s with
  | zero => simp [run]
  | succ m ih =>
    rw [Nat.succ_add, run_succ_eq_next]
    simp only [ih, run_succ_eq_next]
    constructor
    · rintro ⟨a, h1, b, h2, h3⟩; exact ⟨b, ⟨a, h1, h2⟩, h3⟩
    · rintro ⟨b, ⟨a, h1, h2⟩, h3⟩; exact ⟨a, h1, b, h2, h3⟩

end Sys2Proof.Machine
end

