-- ==== Sys2Proof/Tests/Slice0.lean ====
section
/-! SUPPORT. Tests from the vectors of spec/95_test_vectors.md and the examples of the operation rules, one tick each; and for every
obligation that has hypotheses a concrete state that meets them. -/

namespace Sys2Proof.Tests

open Sys2Proof.Machine

/-! ## Helpers -/

/-- The preset-1 frame (spec/95_test_vectors.md, notation). -/
def P1 : Frame := 0x0680A048034A#48

/-- Inputs without a reset, `sel_frame` being preset-1. -/
def level (b : Bool) : Input := { rst := false, rxIn := b, selFrame := P1 }

/-- `s` with the coming inputs `is`. -/
def feed (s : State) (is : List Input) : State := { s with env := { pending := is, ticks := 0 } }

/-- The default instance in tick `now`, HS asleep, with the level of the tick. -/
def base (now : Nat) (b : Bool) : State :=
  feed { State.reset with now := now, hs := { State.reset.hs with wakeAt := now + 1 } } [level b]

/-- RX's registers `r` in tick `now`. -/
def rxAt (now : Nat) (b : Bool) (r : Rx) : State := { base now b with rx := r }

/-- RX holding `count` bits `frame` for a pulse of `d` ticks at level `held`, ended in this tick (spec L2.3). -/
def pulse (held : Bool) (d : Nat) (frame : Frame) (count : Code6) : State :=
  rxAt (10000 + d) (!held) { lastLevel := held, lastT := 10000, frame := frame, count := count, started := true }

/-- TX sending preset-1, HS waiting for it (spec L2.4). -/
def txAt (now : Nat) (pos : Code6) (cnt : Nat) : State :=
  { base now true with
    tx := { busy := true, frame := P1, pos := pos, cnt := cnt }, hs := { state := .send, tSendDone := 0, wakeAt := 7000 } }

/-- HS with `hs_t_send_done = 18993` in tick `now` (spec L2.5). -/
def hsAt (now : Nat) (st : HsState) (wakeAt : Nat) (flag : Bool) : State :=
  { base now true with hs := { state := st, tSendDone := 18993, wakeAt := wakeAt }, respFlag := flag }

/-- HS in WAIT in tick `now`, with latency `lat`. -/
def waiting (now lat : Nat) (flag : Bool) : State :=
  { base now true with hs := { state := .wait, tSendDone := now - lat, wakeAt := 0 }, respFlag := flag }

/-- A field of the state after one tick. -/
def after {α : Type} (s : State) (f : State → α) : Option α := (nextState (step s)).map f

/-- RX's registers and events after one tick. -/
def rxAfter (s : State) : Option (Rx × RxOut) := after s fun t => (t.rx, t.out.rx)

/-- TX's registers after one tick, with the level of the tick. -/
def txAfter (s : State) : Option (Tx × Bool) := after s fun t => (t.tx, t.out.txLine)

/-- HS's registers after one tick, with its strobe. -/
def hsAfter (s : State) : Option (Hs × Bool) := after s fun t => (t.hs, t.out.hsToEvt)

/-- An outcome with a state in it goes on. -/
theorem goes_on {o : Result} (h : (nextState o).isSome = true) : ∃ t, o = .next t := by
  cases o with
  | next t => exact ⟨t, rfl⟩
  | fault r => exact absurd h Bool.false_ne_true
  | refused r => exact absurd h Bool.false_ne_true

/-! ## Well-formedness and decoding -/

/-- Each check of R11 refuses a set that violates it alone, and the defaults pass. -/
theorem test_params_checks :
    Params.standard.valid = true ∧ { Params.standard with tBit := 0 }.valid = false ∧
    { Params.standard with tGap := 0 }.valid = false ∧ { Params.standard with sleepRes := 0 }.valid = false ∧
    { Params.standard with tickUs := 0 }.valid = false ∧ { Params.standard with txCntW := 12 }.valid = false ∧
    { Params.standard with tBit := 8193 }.valid = false ∧ { Params.standard with tsW := 0 }.valid = false := by decide

/-- Each relation of R12 fails alone (95_test_vectors L2.1 names `TOL_PCT = 100`), and R11 admits all three sets. -/
theorem test_params_round_trip_relations :
    Params.standard.roundTrips = true ∧ { Params.standard with tolPct := 100 }.roundTrips = false ∧
    { Params.standard with tMin := 105 }.roundTrips = false ∧ { Params.standard with tGap := 4992 }.roundTrips = false ∧
    { Params.standard with tolPct := 100 }.valid = true := by decide

/-- A number beyond a vector's width is no value of it. -/
theorem test_vector_widths :
    Format.fits .rxdv 31 = true ∧ Format.fits .rxdv 32 = false ∧ Format.fits .txdv 16 = false ∧
    Format.fits .hsdv 64 = false ∧ Format.fits .fldv 4 = false ∧ Format.fits .gv 2 = false := by decide

theorem test_too_wide_is_named : decodeNumber .rxdv 32 = .error (.tooWide .rxdv 32) := by rfl

/-- R76, by hand: `- - - - 0`, `- - - 1 1`, `- 0 0 0 1`, `- 0 1 0 1`, `0 1 - 0 1`, `1 1 - 0 1`. -/
theorem test_decode_rx :
    [0b11110#5, 0b11111#5, 0b10001#5, 0b00101#5, 0b01101#5, 0b11001#5].map (fun v => decode (.rxdv v)) =
      [some .rxIdle, some .rxNoise, some .rxPrestart, some .rxBits, some .rxGapEmpty, some .rxGapEmit] := by decide

/-- R78, by hand: `- - 0 0`, `- - 1 0`, `- 0 - 1`, `0 1 - 1`, `1 1 - 1`. -/
theorem test_decode_tx :
    [0b1100#4, 0b0110#4, 0b1011#4, 0b0111#4, 0b1101#4].map (fun v => decode (.txdv v)) =
      [some .txIdle, some .txLoad, some .txHold, some .txNext, some .txEnd] := by decide

/-- R80, by hand, and the decode vectors of programs P1 to P4: `000100`, `000101`, `010110`, `100110`. -/
theorem test_decode_hs :
    [0b111000#6, 0b000100#6, 0b111101#6, 0b000101#6, 0b001110#6, 0b010110#6, 0b100110#6, 0b110111#6].map
        (fun v => decode (.hsdv v)) =
      [some .hsNap, some .hsStart, some .hsSendBusy, some .hsSendDone, some .hsWaitPoll, some .hsAck, some .hsTimeout,
        some .hsReserved] := by decide

/-- R82 and R83, by hand. -/
theorem test_decode_flag_and_global :
    [0b00#2, 0b01#2, 0b10#2, 0b11#2].map (fun v => decode (.fldv v)) =
      [some .flagHold, some .flagSet, some .flagClr, some .flagClrSet] ∧
    [0b0#1, 0b1#1].map (fun v => decode (.gv v)) = [some .tbTick, some .reset] := by decide

/-- Every row's word, at its vector's width, decodes to the row's operation, and `withFetchWord` makes the next tick perform it; the
tick goes on unless the operation is HS_RESERVED. -/
theorem test_every_row_runs :
    ∀ r ∈ opcodeTable, decodeTableWord r.format.width r.pattern = some r.instr ∧
      some r.instr ∈ performed (State.reset.withFetchWord r.format.width r.pattern) ∧
      ((nextState (step (State.reset.withFetchWord r.format.width r.pattern))).isSome = true ↔ r.instr ≠ .hsReserved) := by
  decide

/-! ## Frames, quantization and the classifier -/

/-- The table of 95_test_vectors L2.1. -/
theorem test_quantization_table :
    [0, 49, 50, 67, 68, 103, 104, 139, 141, 171, 172, 208, 275, 276, 312, 379, 380, 520, 624, 728, 936, 4992, 6000, 6931, 6932,
        6999].map (quantize .standard) =
      [0, 0, 0, 0, 1, 1, 1, 1, 1, 1, 2, 2, 2, 3, 3, 3, 4, 5, 6, 7, 9, 48, 58, 66, 67, 67] := by decide

/-- The parameter corners of L2.1, and `ceil_R` as in H15 and H16. -/
theorem test_quantization_corners :
    [49, 50, 149, 150].map (quantize { Params.standard with tBit := 100, tolPct := 50 }) = [0, 1, 1, 2] ∧
    quantize { Params.standard with tBit := 1, tolPct := 0 } 5 = 5 ∧
    [2000, 999].map (ceilR { Params.standard with sleepRes := 1000 }) = [2000, 1000] := by decide

/-- L1.12: preset-1's bytes are `{0x4A,0x03,0x48,0xA0,0x80,0x06}`, and R89 its run-length form. -/
theorem test_preset1_bytes_and_runs :
    (List.range 6).map (frameByte Config.framePreset1) = [0x4A, 0x03, 0x48, 0xA0, 0x80, 0x06] ∧
    frameRuns .standard Config.framePreset1 =
      [low 104, high 104, low 104, high 104, low 208, high 104, low 104, high 208, low 936, high 104, low 208] ++
      [high 104, low 624, high 104, low 104, high 104, low 728, high 104, low 104, high 208, low 520] := by decide

/-- K1 to K4 of L2.8, with the spec's hypothetical table. -/
theorem test_classify :
    let T : List (FrameDefinition Nat) :=
      [{ name := 1, pattern := 0x0680A048034A, ignoreLastByte := false },
        { name := 2, pattern := 0x0080A048034A, ignoreLastByte := true }]
    classify T 0x0680A048034A = some 1 ∧ classify T 0x0780A048034A = some 2 ∧ classify T 0x0780A048034B = none ∧
    classify ([] : List (FrameDefinition Nat)) 0x0680A048034A = none := by decide

/-- The table of R168: codes 0 to 3, none for NOISE and PRESTART, and the operation that detects each. -/
theorem test_condition_table :
    [Condition.noCondition, .malformed, .overrun, .timeout, .noise, .prestart].map (fun c => (c.code, c.detectedBy)) =
      [(some 0, none), (some 1, some .rxGapEmit), (some 2, some .rxBits), (some 3, some .hsTimeout), (none, some .rxNoise),
        (none, some .rxPrestart)] := by decide

/-- The codes reported by a silent tick, a noise pulse (V3), a well-formed frame (V17), a truncated one (V18), an overrun (V13) and
a timeout (H13). -/
theorem test_condition_codes :
    [base 500 true, pulse false 49 0xA 5, pulse true 7000 P1 48, pulse false 7000 0x3 2, pulse true 208 0 47,
        hsAt 58993 .wait 7000 false].map (fun s => after s fun t => conditionCodes t.out) =
      [some [0], some [0], some [0], some [1], some [2], some [3]] := by decide

/-! ## RX (L2.3) -/

/-- V1. -/
theorem test_rxIdle_V1 :
    rxAfter (rxAt 500 true { State.reset.rx with lastLevel := true }) = some (State.reset.rx, .quiet) := by decide

/-- V2: from reset, a pulse of 0 ticks is noise. -/
theorem test_rxNoise_V2 :
    rxAfter (feed State.reset [level false]) = some ({ State.reset.rx with lastLevel := false }, .quiet) := by decide

/-- V3: 49 ticks are noise, mid-frame. -/
theorem test_rxNoise_V3 :
    rxAfter (pulse false 49 0xA 5) =
      some ({ lastLevel := true, lastT := 10049, frame := 0xA, count := 5, started := true }, .quiet) := by decide

/-- V4: 50 ticks are not noise. -/
theorem test_rxPrestart_V4 :
    rxAfter (rxAt 50 false State.reset.rx) = some ({ State.reset.rx with lastLevel := false, lastT := 50 }, .quiet) ∧
    rxSelected (rxAt 50 false State.reset.rx) = some .rxPrestart := by decide

/-- V5: 6999 ticks are not a gap. -/
theorem test_rxPrestart_V5 :
    rxAfter (rxAt 6999 false State.reset.rx) = some ({ State.reset.rx with lastLevel := false, lastT := 6999 }, .quiet) := by
  decide

/-- V6: 7000 ticks are a gap. -/
theorem test_rxGapEmpty_V6 :
    rxAfter (rxAt 7000 false State.reset.rx) =
      some ({ lastLevel := false, lastT := 7000, frame := 0, count := 0, started := true }, .quiet) := by decide

/-- V11: two high bits from bit 3 on. -/
theorem test_rxBits_V11 :
    rxAfter (pulse true 172 0x2 3) =
      some ({ lastLevel := false, lastT := 10172, frame := 0x1A, count := 5, started := true }, .quiet) := by decide

/-- V13: one of two bits fits. -/
theorem test_rxBits_V13 :
    rxAfter (pulse true 208 0 47) =
      some ({ lastLevel := false, lastT := 10208, frame := 0x800000000000, count := 48, started := true },
        { RxOut.quiet with ovrEvt := true }) := by decide

/-- V17: a well-formed frame, and FLAG_SET (F2). -/
theorem test_rxGapEmit_V17 :
    rxAfter (pulse true 7000 P1 48) =
      some ({ lastLevel := false, lastT := 17000, frame := 0, count := 0, started := true },
        { frmEvt := true, frmData := P1, frmBits := 48, frmOk := true, ovrEvt := false }) := by decide

/-- V18: a low gap ends a truncated frame. -/
theorem test_rxGapEmit_V18 :
    rxAfter (pulse false 7000 0x3 2) =
      some ({ lastLevel := true, lastT := 17000, frame := 0, count := 0, started := true },
        { frmEvt := true, frmData := 0x3, frmBits := 2, frmOk := false, ovrEvt := false }) := by decide

/-! ## TX (L2.4) -/

/-- T1. -/
theorem test_txIdle_T1 : txAfter (base 500 true) = some (State.reset.tx, true) := by decide

/-- T2: the line is still 1 in the load's tick. -/
theorem test_txLoad_T2 :
    txAfter (hsAt 7000 .sleep 7000 false) = some ({ busy := true, frame := P1, pos := 0, cnt := 0 }, true) := by decide

/-- T3: bit 3 of 0x4A is 1. -/
theorem test_txHold_T3 :
    txAfter (txAt 7323 3 10) = some ({ busy := true, frame := P1, pos := 3, cnt := 11 }, true) := by decide

/-- T7: the trailing gap. -/
theorem test_txHold_T7 :
    txAfter (txAt 12000 48 7) = some ({ busy := true, frame := P1, pos := 48, cnt := 8 }, true) := by decide

/-- T4. -/
theorem test_txNext_T4 :
    txAfter (txAt 7104 0 103) = some ({ busy := true, frame := P1, pos := 1, cnt := 0 }, false) := by decide

/-- T5: from bit 47 to the gap. -/
theorem test_txNext_T5 :
    txAfter (txAt 11992 47 103) = some ({ busy := true, frame := P1, pos := 48, cnt := 0 }, false) := by decide

/-- T6: the frame register keeps its value. -/
theorem test_txEnd_T6 :
    txAfter (txAt 18992 48 6999) = some ({ busy := false, frame := P1, pos := 0, cnt := 0 }, true) := by decide

/-! ## HS (L2.5) -/

/-- H1. -/
theorem test_hsNap_H1 :
    hsAfter (hsAt 24000 .sleep 25993 false) = some ({ state := .sleep, tSendDone := 18993, wakeAt := 25993 }, false) := by decide

/-- H2: the flag is cleared and the frame loaded in the same tick. -/
theorem test_hsStart_H2 :
    after (hsAt 25993 .sleep 25993 true) (fun t => (t.hs.state, t.tx.busy, t.respFlag)) = some (.send, true, false) := by decide

/-- H3. -/
theorem test_hsSendBusy_H3 :
    hsAfter (txAt 10000 28 40) = some ({ state := .send, tSendDone := 0, wakeAt := 7000 }, false) := by decide

/-- H4. -/
theorem test_hsSendDone_H4 :
    hsAfter { txAt 18993 0 0 with tx := { busy := false, frame := P1, pos := 0, cnt := 0 } } =
      some ({ state := .wait, tSendDone := 18993, wakeAt := 7000 }, false) := by decide

/-- H12: one tick before the timeout. -/
theorem test_hsWaitPoll_H12 :
    hsAfter (hsAt 58992 .wait 7000 false) = some ({ state := .wait, tSendDone := 18993, wakeAt := 7000 }, false) := by decide

/-- H8: one tick of the gap remains. -/
theorem test_hsAck_H8 :
    hsAfter (hsAt 25992 .wait 7000 true) = some ({ state := .sleep, tSendDone := 18993, wakeAt := 25993 }, false) := by decide

/-- H11: at the timeout's tick the flag is taken first. -/
theorem test_hsAck_H11 :
    hsAfter (hsAt 58993 .wait 7000 true) = some ({ state := .sleep, tSendDone := 18993, wakeAt := 58993 }, false) := by decide

/-- H13. -/
theorem test_hsTimeout_H13 :
    hsAfter (hsAt 58993 .wait 7000 false) = some ({ state := .sleep, tSendDone := 18993, wakeAt := 65993 }, true) := by decide

/-- H17. -/
theorem test_hsReserved_H17 : step (hsAt 20000 .reserved 7000 false) = .fault .unreachableState := by rfl

/-! ## FLAG, TB and RESET (L2.2, L2.6, L2.7) -/

/-- F1. -/
theorem test_flagHold_F1 : after (hsAt 20000 .wait 7000 true) State.respFlag = some true := by decide

/-- F2, and V22: with `ACK_ON_MALFORMED` a count of 47 sets the flag too; F5: without it, not. -/
theorem test_flagSet_F2 :
    after (pulse true 7000 P1 48) State.respFlag = some true ∧ after (pulse true 7000 P1 47) State.respFlag = some false ∧
    after { pulse true 7000 P1 47 with params := { Params.standard with ackOnMalformed := true } } State.respFlag =
      some true := by decide

/-- F3. -/
theorem test_flagClr_F3 : after (hsAt 25993 .sleep 25993 true) State.respFlag = some false := by decide

/-- F4: the clear wins and the frame event is still shown. -/
theorem test_flagClrSet_F4 :
    after { pulse true 7000 P1 48 with hs := { State.reset.hs with wakeAt := 0 }, respFlag := true }
      (fun t => (t.respFlag, t.out.rx.frmEvt)) = some (false, true) := by decide

/-- TB1. -/
theorem test_tbTick_TB1 : after (base 41 true) State.now = some 42 := by decide

/-- RS2: a reset tick in the middle of a low bit. -/
theorem test_reset_RS2 :
    after (feed (txAt 7600 5 50) [{ level true with rst := true }]) (fun t => (t.now, t.rx, t.tx)) =
      some (0, { lastLevel := true, lastT := 0, frame := 0, count := 0, started := false },
        { busy := false, frame := 0, pos := 0, cnt := 0 }) ∧
    after (feed (txAt 7600 5 50) [{ level true with rst := true }]) (fun t => (t.hs, t.respFlag, t.out)) =
      some ({ state := .sleep, tSendDone := 0, wakeAt := 7000 }, false, Outputs.quiet) := by decide

/-! ## Witnesses: states that meet the hypotheses of the obligations

Those of an operation's statement include the hypotheses of its selection clause. -/

/-- The invariants hold when they hold of the 48 frame bits. -/
theorem inv_of {s : State} (hv : s.params.valid = true) (ha : s.rx.count.toNat ≤ 48)
    (hb : ∀ i, i < 48 → s.rx.count.toNat ≤ i → frameBit s.rx.frame i = false)
    (hc : s.rx.started = false → s.rx.count = 0#6 ∧ s.rx.frame = 0#48)
    (hd : s.rx.lastT ≤ s.now ∧ s.hs.tSendDone ≤ s.now)
    (he : s.tx.busy = false → s.tx.pos = 0#6 ∧ s.tx.cnt = 0)
    (hf : s.tx.pos.toNat ≤ 48 ∧ s.tx.cnt < slotLength s.params s.tx.pos.toNat)
    (hg : s.hs.state ≠ .reserved)
    (hh : s.hs.state = .send → s.tx.busy = true ∨ hsSelected s = some .hsSendDone)
    (hi : s.hs.state = .wait ∨ s.hs.state = .sleep → s.tx.busy = false) : s.Inv where
  instanceValid := hv
  countBound := ha
  frameAboveCount i hci :=
    if h : i < 48 then hb i h hci else frameBit_of_le _ _ (Nat.le_of_not_lt h)
  notStarted := hc
  lastTBound := hd.1
  sendDoneBound := hd.2
  txIdle := he
  posBound := hf.1
  cntBound := hf.2
  notReserved := hg
  sending := hh
  notSending := hi

/-- A small instance, so that whole transmissions are short: 48 bit slots of one tick, a gap of two. -/
def small : Params :=
  { Params.standard with tBit := 1, tolPct := 0, tGap := 2, tMin := 0, tAckTo := 2, tToGap := 2, sleepRes := 2 }

/-- `small` in tick `now`, HS in `st`, quiet line for `n` ticks. -/
def smallAt (now : Nat) (st : HsState) (sent : Nat) (n : Nat) : State :=
  feed { State.initial small with now := now, hs := { state := st, tSendDone := sent, wakeAt := 0 } }
    (List.replicate n (level true))

theorem smallAt_inv (now sent n : Nat) (st : HsState) (h : st = .sleep ∨ st = .wait) (hs : sent ≤ now) :
    (smallAt now st sent n).Inv :=
  inv_of (show small.valid = true by decide) (Nat.zero_le _) (fun i _ _ => BitVec.getLsbD_zero) (fun _ => ⟨rfl, rfl⟩)
    ⟨Nat.zero_le _, hs⟩ (fun _ => ⟨rfl, rfl⟩) ⟨Nat.zero_le _, by show 0 < slotLength small 0; decide⟩
    (by rcases h with rfl | rfl <;> simp [smallAt, feed])
    (by rcases h with rfl | rfl <;> intro hc <;> simp [smallAt, feed] at hc) (fun _ => rfl)

/-- `State.TimeFits` of the small states, as a comparison of numbers. -/
theorem timeFits_of {s : State} {n : Nat}
    (h : s.now + n + max (s.params.tGap + s.params.sleepRes) (s.params.tToGap + 1) < 2 ^ s.params.tsW) : s.TimeFits n := h

theorem witness_ResetOperationGivesResetState : State.reset.params.valid = true := by decide

theorem witness_ResetTickReplacesEveryUnit :
    (placeReset (txAt 7600 5 50)).params.valid = true ∧ (placeReset (txAt 7600 5 50)).input.rst = true := by decide

/-- The last tick the default instance admits. -/
theorem witness_TickOperationCountsUp :
    (base (2 ^ 64 - 2) true).params.valid = true ∧ (base (2 ^ 64 - 2) true).now + 1 < 2 ^ 64 ∧
    (base (2 ^ 64 - 2) true).input.rst = false := by decide

/-- Each clause of R11 violated alone, the first tick that does not fit, and the first wake times that do not: an ack with latency
6999 and 7000, a timeout. -/
theorem witness_InvalidInstanceAndTimestampOverflowAreRefused :
    (∀ p ∈ [{ Params.standard with tBit := 0 }, { Params.standard with tGap := 0 }, { Params.standard with sleepRes := 0 },
        { Params.standard with tickUs := 0 }, { Params.standard with tGap := 8193 }, { Params.standard with tsW := 0 }],
      ¬ (1 ≤ p.tBit ∧ 1 ≤ p.tGap ∧ 1 ≤ p.sleepRes ∧ 1 ≤ p.tickUs ∧ max p.tBit p.tGap ≤ 2 ^ p.txCntW ∧ 1 ≤ p.tsW)) ∧
    (base (2 ^ 64 - 1) true).params.valid = true ∧ (base (2 ^ 64 - 1) true).input.rst = false ∧
    2 ^ (base (2 ^ 64 - 1) true).params.tsW ≤ (base (2 ^ 64 - 1) true).now + 1 ∧
    (∀ s ∈ [waiting (2 ^ 64 - 1) 6999 true, waiting (2 ^ 64) 7000 true, waiting (2 ^ 64 - 7000) 40000 false],
      s.params.valid = true ∧ s.hs.state = .wait ∧ s.hs.tSendDone ≤ s.now ∧ s.input.rst = false) ∧
    (∀ s ∈ [waiting (2 ^ 64 - 1) 6999 true, waiting (2 ^ 64) 7000 true],
      2 ^ s.params.tsW ≤ (if s.now - s.hs.tSendDone < s.params.tGap then
        s.now + s.params.sleepRes *
          ((s.params.tGap - (s.now - s.hs.tSendDone) + s.params.sleepRes - 1) / s.params.sleepRes)
        else s.now) ∧ s.respFlag = true) ∧
    2 ^ (waiting (2 ^ 64 - 7000) 40000 false).params.tsW ≤
      (waiting (2 ^ 64 - 7000) 40000 false).now + (waiting (2 ^ 64 - 7000) 40000 false).params.tToGap ∧
    (waiting (2 ^ 64 - 7000) 40000 false).respFlag = false ∧
    (waiting (2 ^ 64 - 7000) 40000 false).params.tAckTo ≤
      (waiting (2 ^ 64 - 7000) 40000 false).now - (waiting (2 ^ 64 - 7000) 40000 false).hs.tSendDone := by decide

/-- Each clause at the edge of its range: no change, 49, 50 and 6999, 7000 ticks, started or not, with and without bits. -/
theorem witness_ReceiverOperationFollowsThePulse :
    [rxAt 7000 true State.reset.rx, pulse true 49 0 0, rxAt 50 false State.reset.rx, rxAt 6999 false State.reset.rx,
        pulse true 50 0 0, pulse true 6999 0 48, rxAt 7000 false State.reset.rx, pulse true 7000 0 1].map rxSelected =
      [some .rxIdle, some .rxNoise, some .rxPrestart, some .rxPrestart, some .rxBits, some .rxBits, some .rxGapEmpty,
        some .rxGapEmit] := by decide

/-- Idle without and with a start, the tick before the end of a slot, the ends of slots 0, 47 and 48. -/
theorem witness_TransmitterOperationFollowsTheSlot :
    [base 500 true, hsAt 7000 .sleep 7000 false, txAt 7103 0 102, txAt 7104 0 103, txAt 11992 47 103, txAt 18991 48 6998,
        txAt 18992 48 6999].map txSelected =
      [some .txIdle, some .txLoad, some .txHold, some .txNext, some .txNext, some .txHold, some .txEnd] := by decide

/-- One tick before the wake time and at it, one tick before the timeout and at it, with and without the flag. -/
theorem witness_HandshakeOperationFollowsItsState :
    [hsAt 25992 .sleep 25993 true, hsAt 25993 .sleep 25993 false, txAt 10000 28 40, hsAt 18994 .send 0 false,
        hsAt 58992 .wait 0 false, hsAt 58993 .wait 0 true, hsAt 58993 .wait 0 false, hsAt 58993 .reserved 0 false].map hsSelected =
      [some .hsNap, some .hsStart, some .hsSendBusy, some .hsSendDone, some .hsWaitPoll, some .hsAck, some .hsTimeout,
        some .hsReserved] := by decide

theorem witness_HandoffsFollowTheOperations : (hsAt 25993 .sleep 25993 true).input.rst = false := by decide

/-- RX_GAP_EMIT, TX_LOAD, HS_START and FLAG_CLR_SET in one tick, each going on. -/
theorem witness_TickRunsTheDecodedOperations :
    let s := { pulse true 7000 P1 48 with hs := { State.reset.hs with wakeAt := 0 } }
    s.input.rst = false ∧ decode (rxdv s) = some .rxGapEmit ∧ decode (txdv s) = some .txLoad ∧
    decode (hsdv s) = some .hsStart ∧ decode (fldv s) = some .flagClrSet ∧
    ∀ i ∈ [Instr.tbTick, .rxGapEmit, .txLoad, .hsStart, .flagClrSet], (nextState (exec i s)).isSome = true := by decide

theorem witness_EachUnitWritesItsOwnRegisters :
    ∀ i ∈ Instr.all, i ≠ .hsReserved → (nextState (exec i (base 500 true))).isSome = true := by decide

theorem witness_TickShowsTheLineOfThePreState : ∃ t, step (txAt 7104 0 103) = .next t := goes_on (by decide)

/-- A frame event, an overrun, a timeout and a silent tick. -/
theorem witness_TickStrobesExactlyItsEvents :
    ∀ s ∈ [pulse true 7000 P1 48, pulse true 208 0 47, hsAt 58993 .wait 7000 false, base 500 true],
      s.input.rst = false ∧ (nextState (step s)).isSome = true := by decide

/-- A truncated frame and a timeout in one tick. -/
theorem witness_ReceiverReportsAtMostOneCondition :
    let s := { pulse true 7000 0x3 2 with now := 58993, hs := { state := .wait, tSendDone := 18993, wakeAt := 0 } }
    (∃ t, step s = .next t) ∧ after s (fun t => conditions t.out) = some [.malformed, .timeout] :=
  ⟨goes_on (by decide), by decide⟩

theorem witness_RxIdleChangesNothing :
    let s := rxAt 500 true { State.reset.rx with count := 48 }
    s.params.valid = true ∧ s.rx.count.toNat ≤ 48 ∧ s.input.rst = false ∧ s.input.rxIn = s.rx.lastLevel := by decide

/-- The longest noise pulse. -/
theorem witness_RxNoiseOnlyBookkeeps :
    let s := pulse false 49 0xA 5
    s.params.valid = true ∧ s.rx.count.toNat ≤ 48 ∧ s.rx.lastT ≤ s.now ∧ s.input.rst = false ∧
    s.input.rxIn ≠ s.rx.lastLevel ∧ s.now - s.rx.lastT < s.params.tMin := by decide

/-- The shortest and the longest pulse that is discarded before the start. -/
theorem witness_RxPrestartDiscardsThePulse :
    ∀ s ∈ [rxAt 50 false State.reset.rx, rxAt 6999 false State.reset.rx],
      s.params.valid = true ∧ s.rx.count.toNat ≤ 48 ∧ s.rx.lastT ≤ s.now ∧ s.input.rst = false ∧
      s.input.rxIn ≠ s.rx.lastLevel ∧ s.params.tMin ≤ s.now - s.rx.lastT ∧ s.rx.started = false ∧
      s.now - s.rx.lastT < s.params.tGap := by decide

/-- The shortest gap. -/
theorem witness_RxGapEmptyStartsAccumulation :
    let s := rxAt 7000 false State.reset.rx
    s.params.valid = true ∧ s.rx.count.toNat ≤ 48 ∧ s.rx.lastT ≤ s.now ∧ s.input.rst = false ∧
    s.input.rxIn ≠ s.rx.lastLevel ∧ s.params.tMin ≤ s.now - s.rx.lastT ∧ s.params.tGap ≤ s.now - s.rx.lastT ∧
    s.rx.count = 0#6 := by decide

/-- The shortest gap, with 48 bits, 47 bits and one bit. -/
theorem witness_RxGapEmitPresentsTheFrame :
    ∀ s ∈ [pulse true 7000 P1 48, pulse true 7000 0 47, pulse false 7000 0x1 1],
      s.params.valid = true ∧ s.rx.count.toNat ≤ 48 ∧ s.rx.lastT ≤ s.now ∧ s.input.rst = false ∧
      s.input.rxIn ≠ s.rx.lastLevel ∧ s.params.tMin ≤ s.now - s.rx.lastT ∧ s.params.tGap ≤ s.now - s.rx.lastT ∧
      1 ≤ s.rx.count.toNat := by decide

/-- The shortest data pulse (no bit), the longest (67 bits), and one at a full frame. -/
theorem witness_RxBitsFoldsThePulseIntoTheFrame :
    ∀ s ∈ [pulse true 50 0x2 3, pulse true 6999 0 0, pulse true 104 P1 48],
      s.params.valid = true ∧ s.rx.count.toNat ≤ 48 ∧ s.rx.lastT ≤ s.now ∧ s.input.rst = false ∧
      s.input.rxIn ≠ s.rx.lastLevel ∧ s.params.tMin ≤ s.now - s.rx.lastT ∧ s.rx.started = true ∧
      s.now - s.rx.lastT < s.params.tGap := by decide

/-- `k = 0` and `k = 1` at the edges of the default bands, by the table of L2.1. -/
theorem witness_QuantizationBands :
    1 ≤ Params.standard.tBit ∧ Params.standard.tolPct < 100 ∧
    [67, 68, 171, 172].map (quantize .standard) = [0, 1, 1, 2] := by decide

/-- The start gate shut (a pulse of 6999 ticks), opening (7000), and in a reset tick. -/
theorem witness_StartGateOpensAtTheFirstGap :
    (∀ s ∈ [rxAt 6999 false State.reset.rx, rxAt 7000 false State.reset.rx],
      s.input.rst = false ∧ (nextState (step s)).isSome = true ∧ s.rx.started = false) ∧
    (placeReset (pulse true 104 P1 48)).input.rst = true ∧
    (nextState (step (placeReset (pulse true 104 P1 48)))).isSome = true := by decide

theorem witness_QuietLineHoldsTheReceiver :
    let s := smallAt 5 .sleep 0 4
    s.Inv ∧ s.NoReset (3 + 1) ∧ s.TimeFits (3 + 1) ∧ ∀ k, k ≤ 3 → (s.inputAt k).rxIn = s.rx.lastLevel :=
  ⟨smallAt_inv 5 0 4 .sleep (.inl rfl) (by decide), by unfold State.NoReset; decide, timeFits_of (by decide),
    fun k h => (by decide : ∀ k, k < 4 → ((smallAt 5 .sleep 0 4).inputAt k).rxIn = true) k (by omega)⟩

/-- Two runs that differ in TX, HS, FLAG and `sel_frame`. -/
theorem witness_ReceiverIsIndependentOfTheOtherUnits :
    let s := pulse true 7000 P1 48
    let s' := feed { txAt 17000 3 10 with rx := s.rx, respFlag := true } [{ level false with selFrame := 0 }]
    s.params = s'.params ∧ s.now = s'.now ∧ s.rx = s'.rx ∧
    (∀ k, k < 0 + 1 → (s.inputAt k).rst = (s'.inputAt k).rst ∧ (s.inputAt k).rxIn = (s'.inputAt k).rxIn) ∧
    (nextState (run (0 + 1) s)).isSome = true ∧ (nextState (run (0 + 1) s')).isSome = true := by decide

theorem witness_TxIdleChangesNothing :
    let s := base 500 true
    s.params.valid = true ∧ s.tx.pos.toNat ≤ 48 ∧ s.tx.cnt < slotLength s.params s.tx.pos.toNat ∧ s.tx.busy = false ∧
    hsStartWire s = false := by decide

theorem witness_TxLoadLatchesTheSelectedFrame :
    let s := hsAt 7000 .sleep 7000 false
    s.params.valid = true ∧ s.tx.pos.toNat ≤ 48 ∧ s.tx.cnt < slotLength s.params s.tx.pos.toNat ∧ s.tx.busy = false ∧
    hsStartWire s = true := by decide

/-- The last held tick of a bit slot and of the gap slot. -/
theorem witness_TxHoldCountsTheSlot :
    ∀ s ∈ [txAt 7323 47 102, txAt 12000 48 6998],
      s.params.valid = true ∧ s.tx.pos.toNat ≤ 48 ∧ s.tx.cnt < slotLength s.params s.tx.pos.toNat ∧ s.tx.busy = true ∧
      s.tx.cnt ≠ slotLength s.params s.tx.pos.toNat - 1 := by decide

/-- From the first bit slot, and from the last. -/
theorem witness_TxNextBeginsTheNextSlot :
    ∀ s ∈ [txAt 7104 0 103, txAt 11992 47 103],
      s.params.valid = true ∧ s.tx.pos.toNat < 48 ∧ s.tx.cnt < s.params.tBit ∧ s.tx.busy = true ∧
      s.tx.cnt = s.params.tBit - 1 := by decide

theorem witness_TxEndReturnsToIdle :
    let s := txAt 18992 48 6999
    s.params.valid = true ∧ s.tx.pos = 48#6 ∧ s.tx.cnt < s.params.tGap ∧ s.tx.busy = true ∧ s.tx.cnt = s.params.tGap - 1 := by
  decide

/-- A start in tick 5, watched to the last tick of the gap slot (`n = 49`, the first being `n = 0`). -/
theorem witness_TransmissionDrivesTheWaveform :
    let s := smallAt 5 .sleep 0 51
    s.Inv ∧ s.NoReset (49 + 1) ∧ s.TimeFits (49 + 1) ∧ hsStartWire s = true ∧ 49 < 48 * s.params.tBit + s.params.tGap :=
  ⟨smallAt_inv 5 0 51 .sleep (.inl rfl) (by decide), by unfold State.NoReset; decide, timeFits_of (by decide), by decide,
    by decide⟩

theorem witness_TransmissionEndsAfterItsExactLength :
    let s := smallAt 5 .sleep 0 51
    s.Inv ∧ s.NoReset (48 * s.params.tBit + s.params.tGap + 1) ∧ s.TimeFits (48 * s.params.tBit + s.params.tGap + 1) ∧
    hsStartWire s = true :=
  ⟨smallAt_inv 5 0 51 .sleep (.inl rfl) (by decide), by unfold State.NoReset; decide, timeFits_of (by decide), by decide⟩

/-- A tick that naps, with two values on `sel_frame`. -/
theorem witness_SelectedFrameIsReadOnlyAtStart :
    let s := base 500 true
    let s' := feed s [{ level true with selFrame := 0 }]
    s' = { s with env := s'.env } ∧ s'.input = { s.input with selFrame := s'.input.selFrame } ∧ hsStartWire s = false ∧
    (nextState (step s)).isSome = true := by decide

theorem witness_HsNapChangesNothing :
    let s := hsAt 25992 .sleep 25993 false
    s.params.valid = true ∧ s.hs.state = .sleep ∧ s.now < s.hs.wakeAt := by decide

theorem witness_HsStartLoadsAndClears :
    let s := hsAt 25993 .sleep 25993 true
    s.params.valid = true ∧ s.hs.state = .sleep ∧ s.input.rst = false ∧ s.hs.wakeAt ≤ s.now ∧ s.tx.busy = false := by decide

theorem witness_HsSendBusyChangesNothing :
    let s := txAt 10000 28 40
    s.params.valid = true ∧ s.hs.state = .send ∧ s.tx.busy = true := by decide

theorem witness_HsSendDoneRecordsTheTime :
    let s := { txAt 18993 0 0 with tx := { busy := false, frame := P1, pos := 0, cnt := 0 } }
    s.params.valid = true ∧ s.hs.state = .send ∧ s.tx.busy = false := by decide

theorem witness_HsWaitPollChangesNothing :
    let s := hsAt 58992 .wait 7000 false
    s.params.valid = true ∧ s.hs.state = .wait ∧ s.hs.tSendDone ≤ s.now ∧ s.respFlag = false ∧
    s.now - s.hs.tSendDone < s.params.tAckTo := by decide

/-- Latency 6999 (one tick remains) and 7000 (none does). -/
theorem witness_HsAckSchedulesTheGapRemainder :
    ∀ s ∈ [hsAt 25992 .wait 7000 true, hsAt 25993 .wait 7000 true],
      s.params.valid = true ∧ s.hs.state = .wait ∧ s.hs.tSendDone ≤ s.now ∧
      (if s.now - s.hs.tSendDone < s.params.tGap then
        s.now + s.params.sleepRes *
          ((s.params.tGap - (s.now - s.hs.tSendDone) + s.params.sleepRes - 1) / s.params.sleepRes)
        else s.now) < 2 ^ s.params.tsW ∧ s.respFlag = true := by decide

theorem witness_HsTimeoutReportsAndSchedulesTheFloor :
    let s := hsAt 58993 .wait 7000 false
    s.params.valid = true ∧ s.hs.state = .wait ∧ s.hs.tSendDone ≤ s.now ∧ s.now + s.params.tToGap < 2 ^ s.params.tsW ∧
    s.respFlag = false ∧ s.params.tAckTo ≤ s.now - s.hs.tSendDone := by decide

theorem witness_HsReservedFaults :
    let s := hsAt 20000 .reserved 7000 false
    s.params.valid = true ∧ s.hs.state = .reserved ∧ s.input.rst = false := by decide

/-- Each illegal register at its first illegal value: in the last two states the timestamps one tick ahead of `now`. -/
theorem witness_IllegalCodesFault :
    (∀ s ∈ [pulse true 104 0 49, txAt 7323 49 0, txAt 7323 0 104, txAt 7323 48 7000,
        rxAt 500 false { State.reset.rx with lastT := 501 }, hsAt 18992 .wait 7000 true],
      s.params.valid = true ∧ s.input.rst = false ∧ s.now + 1 < 2 ^ s.params.tsW ∧
      (48 < s.rx.count.toNat ∨ 48 < s.tx.pos.toNat ∨ slotLength s.params s.tx.pos.toNat ≤ s.tx.cnt ∨
        (s.input.rxIn ≠ s.rx.lastLevel ∧ s.now < s.rx.lastT) ∨ (s.hs.state = .wait ∧ s.now < s.hs.tSendDone))) := by decide

/-- Hold, set and clear, each selected. -/
theorem witness_FlagHoldsSetsAndClears :
    (base 500 true).params.valid = true ∧ hsStartWire (base 500 true) = false ∧ rxSetWire (base 500 true) = false ∧
    hsStartWire (pulse true 7000 P1 48) = false ∧ rxSetWire (pulse true 7000 P1 48) = true ∧
    hsStartWire (hsAt 25993 .sleep 25993 true) = true ∧ rxSetWire (hsAt 25993 .sleep 25993 true) = false := by decide

theorem witness_FlagClearWinsOverSet :
    let s := { pulse true 7000 P1 48 with hs := { State.reset.hs with wakeAt := 0 }, respFlag := true }
    s.params.valid = true ∧ hsStartWire s = true ∧ rxSetWire s = true ∧ (nextState (step s)).isSome = true := by decide

/-- A set flag in WAIT (it stays) and at a start (it is cleared). -/
theorem witness_ResponseFlagStaysUntilTheNextStart :
    ∀ s ∈ [hsAt 20000 .wait 7000 true, hsAt 25993 .sleep 25993 true],
      (nextState (step s)).isSome = true ∧ s.input.rst = false ∧ s.respFlag = true := by decide

/-- Latency 1 (`ceil_R(1) = 2` ticks of sleep, watched at 1 and 2) and latency 2 (`T_GAP`: one tick). -/
theorem witness_AckKeepsTheCadence :
    let s := { smallAt 6 .wait 5 3 with respFlag := true }
    let s' := { smallAt 7 .wait 5 3 with respFlag := true }
    (s.Inv ∧ s.hs.state = .wait ∧ s.respFlag = true ∧ s.NoReset 2 ∧ s.TimeFits 2) ∧
    (s'.Inv ∧ s'.hs.state = .wait ∧ s'.respFlag = true ∧ s'.NoReset 1 ∧ s'.TimeFits 1) ∧
    (s.now - s.hs.tSendDone < s.params.tGap ∧ ceilR s.params (s.params.tGap - (s.now - s.hs.tSendDone)) = 2) ∧
    ¬ s'.now - s'.hs.tSendDone < s'.params.tGap :=
  have h (now : Nat) (hn : 5 ≤ now) : ({ smallAt now .wait 5 3 with respFlag := true } : State).Inv :=
    { smallAt_inv now 5 3 .wait (.inr rfl) hn with sending := nofun }
  ⟨⟨h 6 (by decide), rfl, rfl, by unfold State.NoReset; decide, timeFits_of (by decide)⟩,
    ⟨h 7 (by decide), rfl, rfl, by unfold State.NoReset; decide, timeFits_of (by decide)⟩, by decide, by decide⟩

/-- The timeout of the small instance, its floor being two ticks (watched at 1 and 2). -/
theorem witness_TimeoutKeepsTheFloor :
    let s := smallAt 7 .wait 5 3
    s.Inv ∧ hsSelected s = some .hsTimeout ∧ s.NoReset (max s.params.tToGap 1) ∧ s.TimeFits (max s.params.tToGap 1) :=
  ⟨smallAt_inv 7 5 3 .wait (.inr rfl) (by decide), by decide, by unfold State.NoReset; decide, timeFits_of (by decide)⟩

/-- One tick after the end of the transmission, one before the timeout. -/
theorem witness_WaitEndsByTheTimeout :
    let s := smallAt 6 .wait 5 3
    s.Inv ∧ s.hs.state = .wait ∧ s.params.tAckTo - (s.now - s.hs.tSendDone) = 1 ∧ s.NoReset (1 + 1) ∧ s.TimeFits (1 + 1) :=
  ⟨smallAt_inv 6 5 3 .wait (.inr rfl) (by decide), rfl, by decide, by unfold State.NoReset; decide, timeFits_of (by decide)⟩

/-- Ticks 0, `T_GAP - 1` and `T_GAP` of the small instance. -/
theorem witness_FirstCycleStartsAtTGap :
    let s := feed (State.initial small) (List.replicate 3 (level true))
    s.params.valid = true ∧ s.IsReset ∧ s.NoReset (2 + 1) ∧ s.TimeFits (2 + 1) ∧ 0 ≤ s.params.tGap ∧ 2 = s.params.tGap :=
  ⟨by decide, ⟨rfl, rfl, rfl, rfl, rfl⟩, by unfold State.NoReset; decide, timeFits_of (by decide), by decide, by decide⟩

/-- The small instance's silent cycle: 55 ticks. -/
theorem witness_SilentCycleHasItsExactPeriod :
    let s := smallAt 5 .sleep 0 55
    s.Inv ∧ hsStartWire s = true ∧ 48 * s.params.tBit + s.params.tGap + 1 + max s.params.tAckTo 1 + max s.params.tToGap 1 = 55 ∧
    s.NoReset 55 ∧ s.TimeFits 55 ∧ ∀ k, k < 55 → (s.inputAt k).rxIn = s.rx.lastLevel :=
  ⟨smallAt_inv 5 0 55 .sleep (.inl rfl) (by decide), by decide, by decide, by unfold State.NoReset; decide,
    timeFits_of (by decide), by decide⟩

theorem witness_ResetStateMeetsTheInvariants : State.reset.params.valid = true ∧ State.reset.IsReset :=
  ⟨by decide, rfl, rfl, rfl, rfl, rfl⟩

theorem witness_TickKeepsTheInvariants : (smallAt 5 .sleep 0 1).Inv ∧ ∃ t, step (smallAt 5 .sleep 0 1) = .next t :=
  ⟨smallAt_inv 5 0 1 .sleep (.inl rfl) (by decide), goes_on (by decide)⟩

theorem witness_ReachableStatesMeetTheInvariants : State.reset.Reachable :=
  ⟨State.reset, 0, by decide, ⟨rfl, rfl, rfl, rfl, rfl⟩, rfl⟩

theorem witness_RunsNeverStopWithinTheTimestampRange : (smallAt 5 .sleep 0 0).Inv ∧ (smallAt 5 .sleep 0 0).TimeFits 1000 :=
  ⟨smallAt_inv 5 0 0 .sleep (.inl rfl) (by decide), timeFits_of (by decide)⟩

theorem witness_RunsCountTicksAndKeepTheParameters :
    (∃ t, run 2 (smallAt 5 .sleep 0 2) = .next t) ∧ (smallAt 5 .sleep 0 2).NoReset 2 :=
  ⟨goes_on (by decide), by unfold State.NoReset; decide⟩

/-- The first and the last frame bit. -/
theorem witness_FrameBitIsBitOfItsByte : (0 < 48 ∧ 47 < 48) ∧ frameBit P1 1 = true ∧ frameBit P1 47 = false := by decide

/-- The least instance of R12 (one tick a bit, a gap of 49), preset-1 after a gap, and the shortest trailing gap. -/
theorem witness_TransmittedFrameRoundTrips :
    let p := { small with tGap := 49 }
    let s := feed { State.initial p with now := 49 }
      ((List.range (48 + 49)).map (fun n => level (lineLevel p P1 n)) ++ [level false])
    s.Inv ∧ s.params.roundTrips = true ∧ frameBit P1 0 = false ∧ frameBit P1 47 = false ∧ s.params.tGap ≤ 49 ∧
    s.rx.lastLevel = true ∧ s.params.tGap ≤ s.now - s.rx.lastT ∧ s.NoReset (48 * s.params.tBit + 49 + 1) ∧
    s.TimeFits (48 * s.params.tBit + 49 + 1) ∧
    (∀ n, n < 48 * s.params.tBit + 49 → (s.inputAt n).rxIn = lineLevel s.params P1 n) ∧
    (s.inputAt (48 * s.params.tBit + 49)).rxIn = false :=
  ⟨inv_of (by decide) (Nat.zero_le _) (fun i _ _ => BitVec.getLsbD_zero) (fun _ => ⟨rfl, rfl⟩) (by decide) (fun _ => ⟨rfl, rfl⟩)
      (by decide) (by decide) nofun (fun _ => rfl),
    by decide, by decide, by decide, by decide, by decide, by decide, by unfold State.NoReset; decide, timeFits_of (by decide),
    by decide, by decide⟩

end Sys2Proof.Tests
end

section
/-! PROOFS. Where the model has no meaning: each refusal of a shared operation, the operations and the tick that raise it. -/

namespace Sys2Proof.Machine

@[simp] theorem andThen_refused (r : Refusal) (k : State → Result) : andThen (.refused r) k = .refused r := rfl

/-- A timestamp that does not fit `TS_W` bits is refused by name (R202, I13). -/
theorem whenInRange_of_overflow {s : State} {n : Nat} (o : Result) (h : 2 ^ s.params.tsW ≤ n) :
    whenInRange s n o = .refused .timestampRange := if_neg (Nat.not_lt.2 h)

/-- TB's write of a time past the range (R91, R202). -/
theorem nowWrite_of_overflow {s : State} {n : Nat} (hv : s.params.valid = true) (hn : 2 ^ s.params.tsW ≤ n) :
    nowWrite s n = .refused .timestampRange := by
  rw [nowWrite, onInstance_of_valid _ hv, whenInRange_of_overflow _ hn]

/-- HS's wake time past the range, from a WAIT whose latency is a natural (R142, R143, R202). -/
theorem hsSleepUntil_of_overflow {s : State} {n : Nat} (b : Bool) (hv : s.params.valid = true)
    (hw : s.hs.state = .wait) (ht : s.hs.tSendDone ≤ s.now) (hn : 2 ^ s.params.tsW ≤ n) :
    hsSleepUntil s n b = .refused .timestampRange := by
  have hlegal : (hsLegal s.hs && hsTimeLegal s) = true := by simp [hsLegal_iff, hsTimeLegal_iff, hw, ht]
  rw [hsSleepUntil, onInstance_of_valid _ hv, whenLegal_of_legal _ hlegal, whenInRange_of_overflow _ hn]

/-- Every operation passes the gate of R11 first, so a parameter set that violates it stops the operation (I11). -/
theorem exec_of_invalid {s : State} (i : Instr) (h : s.params.valid = false) :
    exec i s = .refused .invalidInstance := by
  cases i <;> exact onInstance_of_invalid _ h

/-- The global operation comes first in a tick, so its refusal is the tick's (log entry 9). -/
theorem step_of_global_refused {s : State} {r : Refusal}
    (h : exec (if s.input.rst = true then .reset else .tbTick) s = .refused r) : step s = .refused r := by
  have hp : perform (globalSelected s) s = .refused r := by rw [globalSelected_eq]; exact h
  simp only [step, tick, joinTick, hp, andThen_refused, ite_self]

/-- Settles O5: the gate of R11 for the parameters, TB's and HS's range gates for the timestamps; a tick stops with its
global operation, and it goes on only if HS's wake time fits (`TickOk`). -/
theorem invalidInstanceAndTimestampOverflowAreRefused :
    Obligations.InvalidInstanceAndTimestampOverflowAreRefused := by
  intro s
  refine ⟨fun hbad => ?_, fun hv hr hn => ?_, fun hv hw ht => ⟨fun hn => ⟨?_, ?_⟩, fun hn => ⟨?_, ?_⟩⟩⟩
  · have hv : s.params.valid = false := Bool.eq_false_iff.2 fun h => hbad ((valid_iff _).1 h)
    exact ⟨fun i => exec_of_invalid i hv, step_of_global_refused (exec_of_invalid _ hv)⟩
  · have htb : exec .tbTick s = .refused .timestampRange := nowWrite_of_overflow hv hn
    exact ⟨htb, step_of_global_refused (by simpa [hr] using htb)⟩
  · exact hsSleepUntil_of_overflow false hv hw ht hn
  · intro hr hf t hstep
    have hfits : ackWakeAt s < 2 ^ s.params.tsW := ((step_tick hr).1 hstep).1.ackFits hw hf
    exact absurd hfits (Nat.not_lt.2 hn)
  · exact hsSleepUntil_of_overflow true hv hw ht hn
  · intro hr hf hlate t hstep
    have hfits : timeoutWakeAt s < 2 ^ s.params.tsW :=
      ((step_tick hr).1 hstep).1.timeoutFits hw hf ((timeoutDue_iff s).2 hlate)
    exact absurd hfits (Nat.not_lt.2 hn)

end Sys2Proof.Machine
end

section
/-! PROOFS. The handoffs and the outputs of a tick, by the operations that raise them. -/

namespace Sys2Proof.Machine

/-- Settles O12: each handoff, in the registers and parameters it reads. -/
theorem handoffsFollowTheOperations : Obligations.HandoffsFollowTheOperations := by
  intro s hr
  refine ⟨by simp [hsStartWire, hr], by simp [hsStartWire_iff, hr], ?_⟩
  have h48 : s.rx.count = 48#6 ↔ s.rx.count.toNat = 48 := BitVec.toNat_inj.symm
  simp [rxSetWire, hr, h48]

/-- Settles O15: a reset tick shows the idle outputs, every other tick `txLine` of the pre-state. -/
theorem tickShowsTheLineOfThePreState : Obligations.TickShowsTheLineOfThePreState := by
  intro s t hstep
  cases hr : s.input.rst with
  | true =>
    obtain ⟨-, rfl⟩ := (step_reset hr).1 hstep
    simp [Outputs.quiet]
  | false =>
    obtain ⟨-, rfl⟩ := (step_tick hr).1 hstep
    simp [txLine]

/-- `hs_to_evt` is raised exactly when HS performs HS_TIMEOUT (R51, R143). -/
theorem timedOut_iff (s : State) : timedOut s = true ↔ hsSelected s = some .hsTimeout := by
  rw [hsSelected_eq, timedOut]
  cases hst : s.hs.state with
  | sleep => by_cases hd : wakeDue s = true <;> simp [hd]
  | send => by_cases hb : s.tx.busy = true <;> simp [hb]
  | wait => by_cases hf : s.respFlag = true <;> by_cases hl : timeoutDue s = true <;> simp [hf, hl]
  | reserved => simp

/-- RX's event outputs by the operation it performs: FRAME in RX_GAP_EMIT, OVERRUN at most in RX_BITS, else nothing. -/
theorem rxEvents_of_selected (s : State) :
    rxEvents s = if rxSelected s = some .rxGapEmit then frameEvent s.rx
      else if rxSelected s = some .rxBits then overrunEvent (decide (acceptedBits s < pulseBits s)) else .quiet := by
  rw [rxSelected_eq, rxEvents]
  by_cases hc : changed s = true
  · by_cases hn : isNoise s = true
    · simp [hc, hn]
    · by_cases hg : isGap s = true
      · by_cases hb : hasBits s = true <;> simp [hc, hn, hg, hb]
      · by_cases hs : s.rx.started = true <;> simp [hc, hn, hg, hs]
  · simp [hc]

/-- A pulse carries more bits than are accepted exactly when it carries more than fit (R122). -/
theorem acceptedBits_lt_pulseBits_iff (s : State) :
    acceptedBits s < pulseBits s ↔ 48 - s.rx.count.toNat < quantize s.params (s.now - s.rx.lastT) :=
  inf_lt_left.trans not_le

/-- Settles O16: the outputs are those of RX_GAP_EMIT, of RX_BITS, or quiet; the timeout strobe is HS's own. -/
theorem tickStrobesExactlyItsEvents : Obligations.TickStrobesExactlyItsEvents := by
  intro s t hr hstep
  obtain ⟨-, rfl⟩ := (step_tick hr).1 hstep
  rw [tickState_out_rx, tickState_out_hsToEvt, timedOut_iff, rxEvents_of_selected]
  split_ifs with hemit hbits
  · simp [hemit, frameEvent]
  · simp [hbits, overrunEvent, RxOut.quiet, acceptedBits_lt_pulseBits_iff]
  · simp [hemit, hbits, RxOut.quiet]

end Sys2Proof.Machine
end

section
/-! PROOFS. The lockstep of a tick and the frame of each shared write. -/

namespace Sys2Proof.Machine

/-- Settles O13: the five operations are performed side by side from the pre-state, and their parts are joined. -/
theorem tickRunsTheDecodedOperations : Obligations.TickRunsTheDecodedOperations := by
  intro s a b c d e ir ix ih ig hr hir hix hih hig ha hb hc hd he
  have hg : globalSelected s = some .tbTick := by rw [globalSelected_eq, hr]; rfl
  have hrx : rxSelected s = some ir := hir
  have htx : txSelected s = some ix := hix
  have hhs : hsSelected s = some ih := hih
  have hfl : flagSelected s = some ig := hig
  have hstep : step s = .next (endTick (joinParts s a b c d e)) := by
    simp [step, tick, joinTick, perform, hg, hrx, htx, hhs, hfl, ha, hb, hc, hd, he]
  exact ⟨by simp [performed, hg, hrx, htx, hhs, hfl], _, hstep, rfl, rfl, rfl, rfl, rfl, rfl, rfl,
    inputAt_of_endTick s _ rfl⟩

section
variable {s t : State}

theorem rxHold_frame (h : rxHold s = .next t) : t = { s with rx := t.rx, out := { s.out with rx := t.out.rx } } := by
  obtain ⟨-, -, rfl⟩ := rxHold_eq_next.1 h
  rfl

theorem rxOnChange_frame {r : Rx} {o : RxOut} (h : rxOnChange s r o = .next t) :
    t = { s with rx := t.rx, out := { s.out with rx := t.out.rx } } := by
  obtain ⟨-, -, -, rfl⟩ := rxOnChange_eq_next.1 h
  rfl

theorem txWrite_frame {x : Tx} (h : txWrite s x = .next t) :
    t = { s with tx := t.tx, out := { s.out with txLine := t.out.txLine } } := by
  obtain ⟨-, -, -, rfl⟩ := txWrite_eq_next.1 h
  rfl

theorem hsWrite_frame {x : Hs} {b : Bool} (h : hsWrite s x b = .next t) :
    t = { s with hs := t.hs, out := { s.out with hsToEvt := t.out.hsToEvt } } := by
  obtain ⟨-, -, rfl⟩ := hsWrite_eq_next.1 h
  rfl

theorem hsWaitWrite_frame {x : Hs} {b : Bool} (h : hsWaitWrite s x b = .next t) :
    t = { s with hs := t.hs, out := { s.out with hsToEvt := t.out.hsToEvt } } := by
  obtain ⟨-, -, -, rfl⟩ := hsWaitWrite_eq_next.1 h
  rfl

theorem hsSleepUntil_frame {n : Nat} {b : Bool} (h : hsSleepUntil s n b = .next t) :
    t = { s with hs := t.hs, out := { s.out with hsToEvt := t.out.hsToEvt } } := by
  obtain ⟨-, -, -, -, rfl⟩ := hsSleepUntil_eq_next.1 h
  rfl

theorem flagWrite_frame {b : Bool} (h : flagWrite s b = .next t) : t = { s with respFlag := t.respFlag } := by
  obtain ⟨-, rfl⟩ := flagWrite_eq_next.1 h
  rfl

theorem nowWrite_frame {n : Nat} (h : nowWrite s n = .next t) : t = { s with now := t.now } := by
  obtain ⟨-, -, rfl⟩ := nowWrite_eq_next.1 h
  rfl

end

/-- Settles O14: every operation but RESET is one of the shared writes, and each of these has its unit's frame. -/
theorem eachUnitWritesItsOwnRegisters : Obligations.EachUnitWritesItsOwnRegisters := by
  intro s t
  simp only [List.forall_mem_cons, List.not_mem_nil, false_imp_iff, implies_true, and_true]
  refine ⟨?rx, ?tx, ?hs, ?flag, nowWrite_frame, fun h => ?reset⟩
  case rx =>
    exact ⟨rxHold_frame, rxOnChange_frame, rxOnChange_frame, rxOnChange_frame, rxOnChange_frame, rxOnChange_frame⟩
  case tx => exact ⟨txWrite_frame, txWrite_frame, txWrite_frame, txWrite_frame, txWrite_frame⟩
  case hs =>
    exact ⟨hsWrite_frame, hsWrite_frame, hsWrite_frame, hsWrite_frame, hsWaitWrite_frame, hsSleepUntil_frame,
      hsSleepUntil_frame⟩
  case flag => exact ⟨flagWrite_frame, flagWrite_frame, flagWrite_frame, flagWrite_frame⟩
  case reset =>
    obtain ⟨-, rfl⟩ := execReset_eq_next.1 h
    exact ⟨rfl, rfl⟩

end Sys2Proof.Machine
end

section
/-! PROOFS. The start gate of RX (R35). -/

namespace Sys2Proof.Machine

/-- RX is started by a change that ends a gap which is not noise, and stays started (R35, R120, R121). -/
theorem rxNext_started_iff (s : State) :
    (rxNext s).started = true ↔ s.rx.started = true ∨ changed s = true ∧ isNoise s = false ∧ isGap s = true := by
  unfold rxNext
  by_cases hc : changed s = true
  · by_cases hn : isNoise s = true
    · simp [hc, hn, rxBookkeep]
    · by_cases hg : isGap s = true
      · simp [hc, hn, hg, rxBookkeep, rxCleared]
      · by_cases hs : s.rx.started = true <;> simp [hc, hn, hg, hs, rxBookkeep, rxAccumulated]
  · simp [hc]

/-- Before the first gap a change is bookkept and adds no bit (R119). -/
theorem rxNext_of_not_started {s : State} (hs : s.rx.started = false) (hg : isGap s = false) :
    rxNext s = if changed s = false then s.rx else rxBookkeep s s.rx := by
  simp [rxNext, hs, hg]

/-- Settles O25: RESET clears `rx_started`; `rxNext` says when another tick sets it and what a shorter pulse writes. -/
theorem startGateOpensAtTheFirstGap : Obligations.StartGateOpensAtTheFirstGap := by
  intro s t hstep
  refine ⟨fun hr => ?_, fun hr => ?_⟩
  · obtain ⟨-, rfl⟩ := (step_reset hr).1 hstep
    rfl
  · obtain ⟨-, rfl⟩ := (step_tick hr).1 hstep
    refine ⟨?_, fun hs hd => ?_⟩
    · rw [tickState_rx, rxNext_started_iff, changed_iff, not_isNoise_iff, isGap_iff]
    · rw [tickState_rx, rxNext_of_not_started hs ((not_isGap_iff s).2 hd)]
      split <;> exact ⟨rfl, rfl⟩

end Sys2Proof.Machine
end

section
/-! PROOFS. The invariants of R47 over one unit at a time: each unit's next registers keep its own. -/

namespace Sys2Proof.Machine

/-! ### RX: R47 (a) to (d) -/

/-- R47 (a) to (c), the invariants over RX's registers alone. -/
structure Rx.Inv (r : Rx) : Prop where
  countBound : r.count.toNat ≤ 48
  frameAboveCount : ∀ i, r.count.toNat ≤ i → frameBit r.frame i = false
  notStarted : r.started = false → r.count = 0#6 ∧ r.frame = 0#48

theorem State.Inv.rxInv {s : State} (h : s.Inv) : s.rx.Inv := ⟨h.countBound, h.frameAboveCount, h.notStarted⟩

/-- Registers that hold no bit meet the invariants, started or not. -/
theorem Rx.inv_of_empty {r : Rx} (hc : r.count = 0#6) (hf : r.frame = 0#48) : r.Inv where
  countBound := by simp [hc]
  frameAboveCount := by simp [hf, frameBit]
  notStarted _ := ⟨hc, hf⟩

/-- The bookkeeping of a change writes no register of (a) to (c) (R116). -/
theorem rxBookkeep_inv {r : Rx} (s : State) (h : r.Inv) : (rxBookkeep s r).Inv :=
  ⟨h.countBound, h.frameAboveCount, h.notStarted⟩

theorem add_acceptedBits_le {s : State} (h : s.rx.count.toNat ≤ 48) : s.rx.count.toNat + acceptedBits s ≤ 48 := by
  have hk : acceptedBits s ≤ 48 - s.rx.count.toNat := Nat.min_le_right _ _
  omega

theorem rxAccumulated_count_toNat {s : State} (h : s.rx.count.toNat ≤ 48) :
    (rxAccumulated s).count.toNat = s.rx.count.toNat + acceptedBits s := by
  have hk := add_acceptedBits_le h
  exact Nat.mod_eq_of_lt (by omega)

/-- A data pulse fills the frame from `rx_count` on, and `rx_count` moves past the bits it sets (R122). -/
theorem rxAccumulated_inv {s : State} (h : s.rx.Inv) (hs : s.rx.started = true) : (rxAccumulated s).Inv where
  countBound := by
    rw [rxAccumulated_count_toNat h.countBound]
    exact add_acceptedBits_le h.countBound
  frameAboveCount i hi := by
    rw [rxAccumulated_count_toNat h.countBound] at hi
    refine (frameBit_frameSetRun _ _ _ _ _ (add_acceptedBits_le h.countBound)).trans ?_
    rw [if_neg (by omega)]
    exact h.frameAboveCount i (by omega)
  notStarted hn := Bool.noConfusion (hs.symm.trans hn)

/-- RX keeps (a) to (c): it holds, clears, or accumulates while started. -/
theorem rxNext_inv {s : State} (h : s.rx.Inv) : (rxNext s).Inv := by
  unfold rxNext
  split
  case isTrue => exact h
  case isFalse =>
    refine rxBookkeep_inv s ?_
    split_ifs with _ _ hs
    · exact h
    · exact Rx.inv_of_empty rfl rfl
    · exact rxAccumulated_inv h hs
    · exact h

/-- RX's last time is its old one or the tick's own (R116). -/
theorem rxNext_lastT_le {s : State} (h : s.rx.lastT ≤ s.now) : (rxNext s).lastT ≤ s.now := by
  unfold rxNext
  split
  · exact h
  · exact le_rfl

/-! ### TX: R47 (e) and (f) -/

/-- R47 (e) and (f), the invariants over TX's registers alone. -/
structure Tx.Inv (p : Params) (t : Tx) : Prop where
  txIdle : t.busy = false → t.pos = 0#6 ∧ t.cnt = 0
  posBound : t.pos.toNat ≤ 48
  cntBound : t.cnt < slotLength p t.pos.toNat

theorem State.Inv.txInv {s : State} (h : s.Inv) : s.tx.Inv s.params := ⟨h.txIdle, h.posBound, h.cntBound⟩

/-- The first tick of slot 0 is legal, busy or idle. -/
theorem Tx.inv_of_origin {p : Params} {t : Tx} (hv : p.valid = true) (hp : t.pos = 0#6) (hc : t.cnt = 0) : t.Inv p where
  txIdle _ := ⟨hp, hc⟩
  posBound := by simp [hp]
  cntBound := by rw [hc]; exact slotLength_pos p _ hv

theorem txNext_of_idle {s : State} (hb : s.tx.busy = false) (hs : hsStartWire s = false) : txNext s = s.tx := by
  simp [txNext, hb, hs]

/-- TX keeps (e) and (f): it goes to slot 0, holds, counts on within the slot, or begins the next one before slot 48. -/
theorem txNext_inv {s : State} (hv : s.params.valid = true) (h : s.tx.Inv s.params) : (txNext s).Inv s.params := by
  have hpos := h.posBound
  have hcnt := h.cntBound
  unfold txNext
  split_ifs with hb hs he hg
  · exact Tx.inv_of_origin hv rfl rfl
  · exact h
  · have hend := (not_slotEnds_iff s).1 he
    exact ⟨fun hi => absurd hi hb, hpos, by dsimp only; omega⟩
  · exact Tx.inv_of_origin hv rfl rfl
  · have hne : s.tx.pos.toNat ≠ 48 := fun h48 => hg ((inGapSlot_iff s).2 h48)
    have hnext : (s.tx.pos + 1#6).toNat = s.tx.pos.toNat + 1 := by
      simp only [BitVec.toNat_add, BitVec.toNat_ofNat]
      omega
    exact ⟨fun hi => absurd hi hb, by dsimp only; omega, slotLength_pos _ _ hv⟩

/-! ### HS: R47 (d) and (g) to (i) -/

/-- What a tick can do to HS: nothing (with neither a due wake time nor a finished transmission), start, enter WAIT, or
leave it. -/
theorem hsNext_cases (s : State) :
    (hsNext s = s.hs ∧ (s.hs.state = .sleep → wakeDue s = false) ∧ (s.hs.state = .send → s.tx.busy = true)) ∨
    (s.hs.state = .sleep ∧ hsNext s = { s.hs with state := .send }) ∨
    (s.hs.state = .send ∧ s.tx.busy = false ∧ hsNext s = { s.hs with state := .wait, tSendDone := s.now }) ∨
    (s.hs.state = .wait ∧ ∃ w, hsNext s = { s.hs with state := .sleep, wakeAt := w }) := by
  cases hst : s.hs.state with
  | sleep =>
    by_cases hd : wakeDue s = true
    · exact .inr (.inl ⟨rfl, by simp [hsNext, hst, hd]⟩)
    · exact .inl ⟨by simp [hsNext, hst, hd], by simpa using hd, nofun⟩
  | send =>
    by_cases hb : s.tx.busy = true
    · exact .inl ⟨by simp [hsNext, hst, hb], nofun, fun _ => hb⟩
    · exact .inr (.inr (.inl ⟨rfl, by simpa using hb, by simp [hsNext, hst, hb]⟩))
  | wait =>
    by_cases hf : s.respFlag = true
    · exact .inr (.inr (.inr ⟨rfl, ackWakeAt s, by simp [hsNext, hst, hf]⟩))
    · by_cases hl : timeoutDue s = true
      · exact .inr (.inr (.inr ⟨rfl, timeoutWakeAt s, by simp [hsNext, hst, hf, hl]⟩))
      · exact .inl ⟨by simp [hsNext, hst, hf, hl], nofun, nofun⟩
  | reserved => exact .inl ⟨by simp [hsNext, hst], nofun, nofun⟩

/-- The code 3 is never entered (R47 (g)). -/
theorem hsNext_state_ne_reserved {s : State} (h : s.hs.state ≠ .reserved) : (hsNext s).state ≠ .reserved := by
  obtain ⟨he, -⟩ | ⟨-, he⟩ | ⟨-, -, he⟩ | ⟨-, w, he⟩ := hsNext_cases s
  case inl => rwa [he]
  all_goals rw [he]; exact nofun

/-- The send-done time is its old one or the tick's own (R140). -/
theorem hsNext_tSendDone_le {s : State} (h : s.hs.tSendDone ≤ s.now) : (hsNext s).tSendDone ≤ s.now := by
  obtain ⟨he, -⟩ | ⟨-, he⟩ | ⟨-, -, he⟩ | ⟨-, w, he⟩ := hsNext_cases s
  case inr.inr.inl => rw [he]
  all_goals rw [he]; exact h

theorem hsStartWire_of_not_due {s : State} (h : s.hs.state = .sleep → wakeDue s = false) : hsStartWire s = false := by
  refine Bool.eq_false_iff.2 fun hs => ?_
  obtain ⟨-, hsleep, hdue⟩ := (hsStartWire_iff s).1 hs
  exact absurd hdue (Nat.not_le.2 ((not_wakeDue_iff s).1 (h hsleep)))

/-- A tick that leaves HS in WAIT or SLEEP finds TX idle and does not start it, so TX stays idle (R47 (i)). -/
theorem tx_idle_of_hsNext_not_sending {s : State} (h : s.Inv)
    (hn : (hsNext s).state = .wait ∨ (hsNext s).state = .sleep) : s.tx.busy = false ∧ hsStartWire s = false := by
  obtain ⟨he, hw, -⟩ | ⟨-, he⟩ | ⟨hst, hb, -⟩ | ⟨hst, -⟩ := hsNext_cases s
  · exact ⟨h.notSending (he ▸ hn), hsStartWire_of_not_due hw⟩
  · rw [he] at hn
    exact absurd hn (by simp)
  · exact ⟨hb, hsStartWire_of_not_due (by simp [hst])⟩
  · exact ⟨h.notSending (.inl hst), hsStartWire_of_not_due (by simp [hst])⟩

/-- HS in SEND with TX idle performs HS_SEND_DONE, the exception of R47 (h). -/
theorem busy_or_hsSendDone_of_send {s : State} (h : s.hs.state = .send) :
    s.tx.busy = true ∨ hsSelected s = some .hsSendDone := by
  rw [hsSelected_eq, h]
  cases s.tx.busy <;> simp

end Sys2Proof.Machine
end

section
/-! PROOFS. The invariants of R47 in `ResetState`, over a tick, and over a run. -/

namespace Sys2Proof.Machine

/-- Settles O1: `State.reset` is `ResetState` with the default parameters, whose values are written out there. -/
theorem resetStateHoldsTheResetColumn : Obligations.ResetStateHoldsTheResetColumn :=
  ⟨rfl, rfl, rfl, rfl, rfl, rfl, by decide⟩

/-- Settles O53: RX holds no bit, TX is at its first slot, and HS sleeps with TX idle. -/
theorem resetStateMeetsTheInvariants : Obligations.ResetStateMeetsTheInvariants := by
  rintro s hv ⟨-, hrx, htx, hhs, -⟩
  have hrxInv : s.rx.Inv := by rw [hrx]; exact Rx.inv_of_empty rfl rfl
  have htxInv : s.tx.Inv s.params := by rw [htx]; exact Tx.inv_of_origin hv rfl rfl
  exact {
    instanceValid := hv
    countBound := hrxInv.countBound
    frameAboveCount := hrxInv.frameAboveCount
    notStarted := hrxInv.notStarted
    lastTBound := by simp [hrx, Rx.initial]
    sendDoneBound := by simp [hhs, Hs.initial]
    txIdle := htxInv.txIdle
    posBound := htxInv.posBound
    cntBound := htxInv.cntBound
    notReserved := by simp [hhs, Hs.initial]
    sending := busy_or_hsSendDone_of_send
    notSending := fun _ => by simp [htx, Tx.initial] }

theorem isReset_endTick_resetState (s : State) : (endTick (resetState s)).IsReset := ⟨rfl, rfl, rfl, rfl, rfl⟩

/-- A tick with `rst = 0` keeps the invariants: each unit's own, and TX idle whenever HS is not in SEND. -/
theorem tickState_inv {s : State} (h : s.Inv) : (tickState s).Inv :=
  have hrx := rxNext_inv h.rxInv
  have htx := txNext_inv h.instanceValid h.txInv
  { instanceValid := h.instanceValid
    countBound := hrx.countBound
    frameAboveCount := hrx.frameAboveCount
    notStarted := hrx.notStarted
    lastTBound := Nat.le_succ_of_le (rxNext_lastT_le h.lastTBound)
    sendDoneBound := Nat.le_succ_of_le (hsNext_tSendDone_le h.sendDoneBound)
    txIdle := htx.txIdle
    posBound := htx.posBound
    cntBound := htx.cntBound
    notReserved := hsNext_state_ne_reserved h.notReserved
    sending := busy_or_hsSendDone_of_send
    notSending := fun hn => by
      obtain ⟨hb, hs⟩ := tx_idle_of_hsNext_not_sending h hn
      rw [tickState_tx, txNext_of_idle hb hs, hb] }

/-- Settles O54: a reset tick leaves `ResetState`, and every other tick keeps each unit's invariants. -/
theorem tickKeepsTheInvariants : Obligations.TickKeepsTheInvariants := by
  intro s t h hstep
  cases hr : s.input.rst with
  | true =>
    obtain ⟨hv, rfl⟩ := (step_reset hr).1 hstep
    exact resetStateMeetsTheInvariants _ hv (isReset_endTick_resetState s)
  | false =>
    obtain ⟨-, rfl⟩ := (step_tick hr).1 hstep
    exact tickState_inv h

/-- The invariants hold along every run from a state that meets them. -/
theorem run_keeps_inv {s t : State} {n : Nat} (h : s.Inv) (hrun : run n s = .next t) : t.Inv := by
  induction n generalizing s with
  | zero =>
    cases hrun
    exact h
  | succ n ih =>
    obtain ⟨u, hstep, hrest⟩ := run_succ_eq_next.1 hrun
    exact ih (tickKeepsTheInvariants s u h hstep) hrest

/-- The slot counter's register has room for every slot of an admitted parameter set (R11, R39). -/
theorem slotLength_le_two_pow_txCntW {p : Params} (hv : p.valid = true) (pos : Nat) :
    slotLength p pos ≤ 2 ^ p.txCntW := by
  obtain ⟨-, -, -, -, hmax, -⟩ := (valid_iff p).1 hv
  unfold slotLength
  split
  · exact (le_max_left _ _).trans hmax
  · exact (le_max_right _ _).trans hmax

/-- Settles O55: `ResetState` meets the invariants, a run keeps them, and R47 (f) with R11 bounds `tx_cnt`. -/
theorem reachableStatesMeetTheInvariants : Obligations.ReachableStatesMeetTheInvariants := by
  rintro s ⟨s₀, n, hv, hreset, hrun⟩
  have h : s.Inv := run_keeps_inv (resetStateMeetsTheInvariants s₀ hv hreset) hrun
  exact ⟨h, h.cntBound.trans_le (slotLength_le_two_pow_txCntW h.instanceValid _)⟩

end Sys2Proof.Machine
end

section
/-! PROOFS. The packing of a frame into bytes (R54, R55). -/

namespace Sys2Proof.Machine

/-- Bit `j` of byte `k` is frame bit `8k + j` (R55). -/
theorem frameByte_getLsbD (F : Frame) (k : Nat) {j : Nat} (hj : j < 8) :
    (frameByte F k).getLsbD j = frameBit F (8 * k + j) := by
  simp [frameByte, frameBit, hj]

/-- Settles O58: `i >> 3` and `i & 7` are the quotient and the remainder of `i` by 8, so byte and bit name `i` again. -/
theorem frameBitIsBitOfItsByte : Obligations.FrameBitIsBitOfItsByte := by
  intro F i _
  have hquot : i >>> 3 = i / 8 := Nat.shiftRight_eq_div_pow i 3
  have hrem : i &&& 7 = i % 8 := Nat.and_two_pow_sub_one_eq_mod i 3
  rw [hquot, hrem, frameByte_getLsbD F _ (Nat.mod_lt i (by decide)), Nat.div_add_mod]

end Sys2Proof.Machine
end

section
/-! PROOFS. A tick without a start reads of its inputs only `rst` and `rx_in` (R67, R197): two states that differ in the
environment alone, and agree on these inputs of the tick, go on alike. -/

namespace Sys2Proof.Machine

section
variable {s : State} {e : Env} (hrst : ({ s with env := e } : State).input.rst = s.input.rst)
  (hrx : ({ s with env := e } : State).input.rxIn = s.input.rxIn)

section
include hrx

theorem changed_withEnv : changed { s with env := e } = changed s := by
  rw [changed, hrx, changed]

/-- RX reads `rx_in` alone: in the change test and in the bookkeeping of a change (R115, R116). -/
theorem rxNext_withEnv : rxNext { s with env := e } = rxNext s := by
  rw [rxNext, changed_withEnv hrx, rxBookkeep, hrx]
  rfl

theorem rxEvents_withEnv : rxEvents { s with env := e } = rxEvents s := by
  rw [rxEvents, changed_withEnv hrx]
  rfl

/-- Of the inputs, only `rx_in` decides whether a tick goes on: RX needs a legal last time on a change. -/
theorem tickOk_withEnv (h : TickOk s) : TickOk { s with env := e } :=
  { h with lastTLegal := fun hc => h.lastTLegal (changed_withEnv hrx ▸ hc) }

end

section
include hrst

theorem hsStartWire_withEnv : hsStartWire { s with env := e } = hsStartWire s := by
  rw [Bool.eq_iff_iff, hsStartWire_iff, hsStartWire_iff, hrst]

/-- TX reads `sel_frame` in TX_LOAD alone, which needs `hs_start` (R106). -/
theorem txNext_withEnv (hs : hsStartWire s = false) : txNext { s with env := e } = txNext s := by
  have hs' : hsStartWire { s with env := e } = false := (hsStartWire_withEnv hrst).trans hs
  simp only [txNext, hs, hs']
  rfl

end

section
include hrst hrx

theorem rxSetWire_withEnv : rxSetWire { s with env := e } = rxSetWire s := by
  rw [Bool.eq_iff_iff, rxSetWire_iff, rxSetWire_iff, hrst, changed_withEnv hrx]
  rfl

theorem flagNext_withEnv : flagNext { s with env := e } = flagNext s := by
  rw [flagNext, hsStartWire_withEnv hrst, rxSetWire_withEnv hrst hrx, flagNext]

/-- HS, TB and the line read no input, so the equations of RX, TX and FLAG give the whole next state. -/
theorem tickState_withEnv (hs : hsStartWire s = false) :
    tickState { s with env := e } = { tickState s with env := (tickState { s with env := e }).env } := by
  rw [tickState, rxNext_withEnv hrx, rxEvents_withEnv hrx, txNext_withEnv hrst hs, flagNext_withEnv hrst hrx]
  rfl

end
end

/-- Settles O35: a reset tick reads neither `rx_in` nor `sel_frame`, and any other tick without a start goes on from
both states alike. -/
theorem selectedFrameIsReadOnlyAtStart : Obligations.SelectedFrameIsReadOnlyAtStart := by
  intro s s' henv hinput hs t hstep
  have hrst : s'.input.rst = s.input.rst := by rw [hinput]
  have hrx : s'.input.rxIn = s.input.rxIn := by rw [hinput]
  obtain ⟨e, rfl⟩ : ∃ e, s' = { s with env := e } := ⟨_, henv⟩
  cases hr : s.input.rst with
  | true =>
    obtain ⟨hv, rfl⟩ := (step_reset hr).1 hstep
    exact ⟨_, (step_reset (hrst.trans hr)).2 ⟨hv, rfl⟩, rfl⟩
  | false =>
    obtain ⟨hok, rfl⟩ := (step_tick hr).1 hstep
    exact ⟨_, (step_tick (hrst.trans hr)).2 ⟨tickOk_withEnv hrx hok, rfl⟩, tickState_withEnv hrst hrx hs⟩

end Sys2Proof.Machine
end

section
/-! PROOFS. Which operation TX and HS perform, in their registers and handoffs (R78, R80). -/

namespace Sys2Proof.Machine

/-- Settles O10: the start bit decides while TX is idle; while it is busy, the end of the slot and the gap slot do. -/
theorem transmitterOperationFollowsTheSlot : Obligations.TransmitterOperationFollowsTheSlot := by
  intro s
  cases hb : s.tx.busy with
  | false => cases hs : hsStartWire s <;> simp [txSelected_eq, hb, hs]
  | true =>
    by_cases he : s.tx.cnt + 1 = slotLength s.params s.tx.pos.toNat
    · by_cases hg : s.tx.pos = 48#6 <;> simp [txSelected_eq, hb, slotEnds, inGapSlot, he, hg]
    · simp [txSelected_eq, hb, slotEnds, he]

/-- Settles O11: one test or none in each state of HS but WAIT, and there the flag before the timeout (D12). -/
theorem handshakeOperationFollowsItsState : Obligations.HandshakeOperationFollowsItsState := by
  intro s
  cases hst : s.hs.state with
  | sleep => by_cases hd : s.hs.wakeAt ≤ s.now <;> simp [hsSelected_eq, hst, wakeDue, hd, Nat.not_le.1]
  | send => cases hb : s.tx.busy <;> simp [hsSelected_eq, hst, hb]
  | wait =>
    cases hf : s.respFlag with
    | false =>
      by_cases hl : s.params.tAckTo ≤ s.now - s.hs.tSendDone <;>
        simp [hsSelected_eq, hst, hf, timeoutDue, latency, hl]
    | true => simp [hsSelected_eq, hst, hf]
  | reserved => simp [hsSelected_eq, hst]

end Sys2Proof.Machine
end

section
/-! PROOFS. The operation table as a code: each vector value selects one row, each operation has one row (R87, R90). -/

namespace Sys2Proof.Machine

/-- A test that keeps one row of the table holds of that row alone. -/
theorem mem_opcodeTable_and_iff {p : Row → Bool} {r : Row} (h : opcodeTable.filter p = [r]) (q : Row) :
    q ∈ opcodeTable ∧ p q = true ↔ q = r := by
  rw [← List.mem_filter, h, List.mem_singleton]

/-- The operation maps overlap nowhere and leave no value out (R87). -/
theorem length_filter_selects (v : Vec) : (opcodeTable.filter fun r => r.selects v).length = 1 := by
  cases v with
  | rxdv v => revert v; decide
  | txdv v => revert v; decide
  | hsdv v => revert v; decide
  | fldv v => revert v; decide
  | gv v => revert v; decide

/-- The one row a vector value selects is the row decoded. -/
theorem exists_filter_selects_eq (v : Vec) :
    ∃ r, (opcodeTable.filter fun r => r.selects v) = [r] ∧ decode v = some r.instr := by
  obtain ⟨r, hr⟩ := List.length_eq_one_iff.1 (length_filter_selects v)
  exact ⟨r, hr, by rw [decode, ← List.head?_filter, hr]; rfl⟩

/-- Settles O6: the row that the maps select for the value is the only one, and `decode` answers its operation. -/
theorem everyVectorValueSelectsExactlyOneRow : Obligations.EveryVectorValueSelectsExactlyOneRow := by
  intro v
  obtain ⟨r, hr, hdec⟩ := exists_filter_selects_eq v
  exact ⟨r.instr, hdec, by rw [hr]; rfl⟩

/-- Decoding is looking up a row of the operation that selects the value. -/
theorem decode_eq_some_iff (v : Vec) (i : Instr) :
    decode v = some i ↔ ∃ r ∈ opcodeTable, r.instr = i ∧ r.selects v = true := by
  obtain ⟨r, hr, hdec⟩ := exists_filter_selects_eq v
  have hmem := mem_opcodeTable_and_iff hr
  rw [hdec, Option.some_inj]
  constructor
  · rintro rfl
    obtain ⟨hr, hsel⟩ := (hmem r).2 rfl
    exact ⟨r, hr, rfl, hsel⟩
  · rintro ⟨q, hq, rfl, hsel⟩
    rw [(hmem q).1 ⟨hq, hsel⟩]

/-- The table has exactly one row for every operation (R90). -/
theorem oneRow (i : Instr) : Laws.OneRow.Statement i := by
  cases i
  exacts [Laws.OneRow.rxIdle, Laws.OneRow.rxNoise, Laws.OneRow.rxPrestart, Laws.OneRow.rxBits,
    Laws.OneRow.rxGapEmpty, Laws.OneRow.rxGapEmit, Laws.OneRow.txIdle, Laws.OneRow.txLoad, Laws.OneRow.txHold,
    Laws.OneRow.txNext, Laws.OneRow.txEnd, Laws.OneRow.hsNap, Laws.OneRow.hsStart, Laws.OneRow.hsSendBusy,
    Laws.OneRow.hsSendDone, Laws.OneRow.hsWaitPoll, Laws.OneRow.hsAck, Laws.OneRow.hsTimeout,
    Laws.OneRow.hsReserved, Laws.OneRow.flagHold, Laws.OneRow.flagSet, Laws.OneRow.flagClr,
    Laws.OneRow.flagClrSet, Laws.OneRow.tbTick, Laws.OneRow.reset]

/-- An operation's one row, in terms of its encoding and its mask. -/
theorem exists_row_of_instr (i : Instr) :
    ∃ r, (∀ q, q ∈ opcodeTable ∧ q.instr = i ↔ q = r) ∧ r.format = (encode i).format ∧
      r.pattern = (encode i).bits ∧ r.mask = maskOf i ∧ (encode i).bits &&& maskOf i = (encode i).bits := by
  obtain ⟨r, hrow, hfmt, hpat, hfix, -⟩ := oneRow i
  have hmask : maskOf i = r.mask := by rw [maskOf, ← List.head?_filter, hrow]; rfl
  exact ⟨r, by simpa using mem_opcodeTable_and_iff hrow, hfmt, hpat, hmask.symm, by rw [← hpat, hmask, hfix]⟩

/-- A value decodes to an operation exactly when the operation's one row selects it (R90). -/
theorem decode_eq_some_iff_encode (v : Vec) (i : Instr) :
    decode v = some i ↔ v.format = (encode i).format ∧ v.bits &&& maskOf i = (encode i).bits := by
  obtain ⟨r, hrow, hfmt, hpat, hmask, -⟩ := exists_row_of_instr i
  have hsel : r.selects v = true ↔ v.format = (encode i).format ∧ v.bits &&& maskOf i = (encode i).bits := by
    simp [Row.selects, hfmt, hpat, hmask, @eq_comm _ _ v.format]
  rw [decode_eq_some_iff, ← hsel]
  simp only [← and_assoc, hrow, exists_eq_left]

/-- Settles O7: the encoding has no bit outside its row's mask, so it agrees with itself there. -/
theorem decodeInvertsEncode : Obligations.DecodeInvertsEncode := by
  intro i
  obtain ⟨-, -, -, -, -, hfix⟩ := exists_row_of_instr i
  exact ⟨(decode_eq_some_iff_encode _ i).2 ⟨rfl, hfix⟩, fun v => decode_eq_some_iff_encode v i⟩

/-- Settles O8: ten closed words. -/
theorem writtenOutWordsDecode : Obligations.WrittenOutWordsDecode := by
  unfold Obligations.WrittenOutWordsDecode
  decide

end Sys2Proof.Machine
end

section
/-! PROOFS. What a tick performs in a reset, and where it stops with the fault of an illegal register. -/

namespace Sys2Proof.Machine

/-- Settles O3: the handoffs are 0 by the `rst` in their wires, and the tick is `step_reset`. -/
theorem resetTickReplacesEveryUnit : Obligations.ResetTickReplacesEveryUnit := by
  intro s hv hr
  have hglobal : globalSelected s = some .reset := by rw [globalSelected_eq, hr]; rfl
  exact ⟨by simp [performed, hglobal], by simp [hsStartWire, hr], by simp [rxSetWire, hr],
    _, (step_reset hr).2 ⟨hv, rfl⟩, isReset_endTick_resetState s, rfl, rfl, inputAt_of_endTick s _ rfl⟩

@[simp] theorem andThen_fault (r : Fault) (k : State → Result) : andThen (.fault r) k = .fault r := rfl

section
variable {s : State} (hv : s.params.valid = true)
include hv

/-- Under admitted parameters an illegal register stops a gated operation with the fault (R85, R176). -/
theorem onInstance_whenLegal_of_illegal {b : Bool} (o : Result) (hb : b = false) :
    onInstance s (whenLegal b o) = .fault .unreachableState := by
  rw [onInstance_of_valid _ hv, whenLegal_of_illegal _ hb]

theorem rxHold_of_illegal (h : 48 < s.rx.count.toNat) : rxHold s = .fault .unreachableState :=
  onInstance_whenLegal_of_illegal hv _ (by simpa [rxLegal] using h)

theorem rxOnChange_of_illegal {r : Rx} {o : RxOut} (h : 48 < s.rx.count.toNat ∨ s.now < s.rx.lastT) :
    rxOnChange s r o = .fault .unreachableState :=
  onInstance_whenLegal_of_illegal hv _ (by simpa [rxLegal, rxTimeLegal, imp_iff_not_or] using h)

theorem txWrite_of_illegal {x : Tx}
    (h : 48 < s.tx.pos.toNat ∨ slotLength s.params s.tx.pos.toNat ≤ s.tx.cnt) :
    txWrite s x = .fault .unreachableState :=
  onInstance_whenLegal_of_illegal hv _ (by simpa [txLegal, imp_iff_not_or] using h)

theorem hsWaitWrite_of_illegal {x : Hs} {b : Bool} (h : s.now < s.hs.tSendDone) :
    hsWaitWrite s x b = .fault .unreachableState :=
  onInstance_whenLegal_of_illegal hv _ (by simp [hsTimeLegal, h])

theorem hsSleepUntil_of_illegal {n : Nat} {b : Bool} (h : s.now < s.hs.tSendDone) :
    hsSleepUntil s n b = .fault .unreachableState :=
  onInstance_whenLegal_of_illegal hv _ (by simp [hsTimeLegal, h])

/-- Every RX operation holds `rx_count` against its range, and those of a change `rx_last_t` too (log entry 5). -/
theorem perform_rx_of_illegal (h : 48 < s.rx.count.toNat ∨ changed s = true ∧ s.now < s.rx.lastT) :
    perform (rxSelected s) s = .fault .unreachableState := by
  rw [rxSelected_eq]
  split_ifs with hc
  case pos => exact rxHold_of_illegal hv (h.resolve_right (by simp [hc]))
  all_goals exact rxOnChange_of_illegal hv (h.imp_right And.right)

theorem perform_tx_of_illegal (h : 48 < s.tx.pos.toNat ∨ slotLength s.params s.tx.pos.toNat ≤ s.tx.cnt) :
    perform (txSelected s) s = .fault .unreachableState := by
  rw [txSelected_eq]
  split_ifs <;> exact txWrite_of_illegal hv h

/-- Every operation of WAIT reads the latency (log entry 5). -/
theorem perform_hs_of_illegal (hw : s.hs.state = .wait) (h : s.now < s.hs.tSendDone) :
    perform (hsSelected s) s = .fault .unreachableState := by
  rw [hsSelected_eq, hw]
  dsimp only
  split_ifs
  · exact hsSleepUntil_of_illegal hv h
  · exact hsSleepUntil_of_illegal hv h
  · exact hsWaitWrite_of_illegal hv h

end

/-- Settles O44: the first unit with an illegal register stops the tick, since the units before it go on. -/
theorem illegalCodesFault : Obligations.IllegalCodesFault := by
  intro s hv hr hn hbad
  have hglobal : globalSelected s ≠ some .reset := by rw [globalSelected_eq, hr]; decide
  have htb := (perform_global hr).2 ⟨hv, hn, rfl⟩
  have hstop : tick s = .fault .unreachableState := by
    by_cases hrx : 48 < s.rx.count.toNat ∨ changed s = true ∧ s.now < s.rx.lastT
    · simp [tick, joinTick, htb, perform_rx_of_illegal hv hrx]
    obtain ⟨hcount, hlast⟩ := not_or.1 hrx
    have hrxNext := perform_rx.2 ⟨hv, Nat.not_lt.1 hcount, fun hc => Nat.not_lt.1 fun hl => hlast ⟨hc, hl⟩, rfl⟩
    by_cases htx : 48 < s.tx.pos.toNat ∨ slotLength s.params s.tx.pos.toNat ≤ s.tx.cnt
    · simp [tick, joinTick, htb, hrxNext, perform_tx_of_illegal hv htx]
    obtain ⟨hpos, hcnt⟩ := not_or.1 htx
    have htxNext := perform_tx.2 ⟨hv, Nat.not_lt.1 hpos, Nat.not_le.1 hcnt, rfl⟩
    have hhs : s.hs.state = .wait ∧ s.now < s.hs.tSendDone := by
      rw [← changed_iff] at hbad
      tauto
    simp [tick, joinTick, htb, hrxNext, htxNext, perform_hs_of_illegal hv hhs.1 hhs.2]
  rw [step, if_neg hglobal, hstop, andThen_fault]

end Sys2Proof.Machine
end

section
/-! PROOFS. Runs without a reset, from the invariants and within the timestamp range: they complete, in iterates of
`tickState`. -/

namespace Sys2Proof.Machine

/-- From the invariants a tick with `rst = 0` goes on while `now + 1` and the longer sleep fit (R47, R202). -/
theorem State.Inv.tickOk {s : State} (h : s.Inv) (ht : s.TimeFits 1) : TickOk s := by
  obtain ⟨-, -, hres, -⟩ := (valid_iff _).1 h.instanceValid
  unfold State.TimeFits at ht
  exact {
    instanceValid := h.instanceValid
    nowFits := by omega
    countLegal := h.countBound
    lastTLegal := fun _ => h.lastTBound
    posLegal := h.posBound
    cntLegal := h.cntBound
    stateLegal := h.notReserved
    sendDoneLegal := fun _ => h.sendDoneBound
    ackFits := fun _ _ => by
      have hceil := (ceilR_bounds s.params (s.params.tGap - latency s) hres).2
      unfold ackWakeAt
      split <;> omega
    timeoutFits := fun _ _ _ => by
      unfold timeoutWakeAt
      omega }

theorem iterate_tickState_params (s : State) (n : Nat) : (tickState^[n] s).params = s.params := by
  induction n with
  | zero => rfl
  | succ n ih => rw [Function.iterate_succ_apply', tickState_params, ih]

theorem iterate_tickState_inv {s : State} (h : s.Inv) (n : Nat) : (tickState^[n] s).Inv :=
  Function.Iterate.rec State.Inv h (fun _ => tickState_inv) n

/-- A run without a reset takes each tick by `tickState`. -/
theorem run_eq_iterate_tickState {s : State} {n : Nat} (h : s.Inv) (hr : s.NoReset n) (ht : s.TimeFits n) :
    run n s = .next (tickState^[n] s) := by
  induction n generalizing s with
  | zero => rfl
  | succ n ih =>
    have hrest : (tickState s).NoReset n := fun k hk => by
      rw [tickState_inputAt]
      exact hr (k + 1) (Nat.succ_lt_succ hk)
    have hfits : (tickState s).TimeFits n ∧ s.TimeFits 1 := by
      unfold State.TimeFits at ht ⊢
      rw [tickState_now, tickState_params]
      omega
    have hstep : step s = .next (tickState s) := (step_tick (hr 0 n.succ_pos)).2 ⟨h.tickOk hfits.2, rfl⟩
    exact run_succ_eq_next.2 ⟨_, hstep, ih (tickState_inv h) hrest hfits.1⟩

end Sys2Proof.Machine
end

section
/-! PROOFS. A transmission, tick by tick: the slot and the tick of the slot that TX is in (R71, R110). -/

namespace Sys2Proof.Machine

/-- TX is `n` ticks into the transmission of `F`, and HS waits for it. -/
structure State.Sending (s : State) (F : Frame) (n : Nat) : Prop where
  state : s.hs.state = .send
  busy : s.tx.busy = true
  frame : s.tx.frame = F
  elapsed : s.tx.pos.toNat * s.params.tBit + s.tx.cnt = n

section
variable {s : State} {F : Frame} {n : Nat}

theorem State.Sending.hsSelected_eq_hsSendBusy (h : s.Sending F n) : hsSelected s = some .hsSendBusy := by
  rw [hsSelected_eq, h.state, h.busy]
  rfl

/-- The slot of a tick: bit slot `n / T_BIT`, or the gap slot after the 48 bit slots (R71, R104). -/
theorem State.Sending.slot (h : s.Sending F n) (hi : s.Inv) :
    (s.tx.pos.toNat < 48 ∧ slotLength s.params s.tx.pos.toNat = s.params.tBit ∧ n < 48 * s.params.tBit ∧
      n / s.params.tBit = s.tx.pos.toNat) ∨
    (s.tx.pos.toNat = 48 ∧ slotLength s.params s.tx.pos.toNat = s.params.tGap ∧
      n = 48 * s.params.tBit + s.tx.cnt) := by
  have hcnt := hi.cntBound
  have hn := h.elapsed
  by_cases hp : s.tx.pos.toNat < 48
  · have hlen := slotLength_bit s.params _ hp
    have hend : (s.tx.pos.toNat + 1) * s.params.tBit ≤ 48 * s.params.tBit := Nat.mul_le_mul_right _ hp
    rw [Nat.succ_mul] at hend
    rw [hlen] at hcnt
    exact .inl ⟨hp, hlen, by omega, Nat.div_eq_of_lt_le (by omega) (by rw [Nat.succ_mul]; omega)⟩
  · have h48 : s.tx.pos.toNat = 48 := le_antisymm hi.posBound (Nat.not_lt.1 hp)
    rw [h48] at hn ⊢
    exact .inr ⟨rfl, slotLength_gap s.params, hn.symm⟩

/-- The line carries the frame's waveform (R50, R71). -/
theorem State.Sending.txLine_eq (h : s.Sending F n) (hi : s.Inv) : txLine s.tx = lineLevel s.params F n := by
  obtain ⟨hp, -, hn, hdiv⟩ | ⟨hp, -, hn⟩ := h.slot hi
  · simp [txLine, lineLevel, h.busy, h.frame, hp, hn, hdiv]
  · simp [txLine, lineLevel, hp, hn]

/-- TX_END is the last of the `48*T_BIT + T_GAP` ticks (R109, R110). -/
theorem State.Sending.txEnd_iff (h : s.Sending F n) (hi : s.Inv) :
    slotEnds s = true ∧ inGapSlot s = true ↔ n + 1 = 48 * s.params.tBit + s.params.tGap := by
  obtain ⟨-, hgap, -⟩ := (valid_iff _).1 hi.instanceValid
  rw [slotEnds_iff, inGapSlot_iff]
  obtain ⟨hp, hlen, hn, -⟩ | ⟨hp, hlen, hn⟩ := h.slot hi <;> rw [hlen] <;> omega

theorem State.Sending.txSelected_eq_txEnd_iff (h : s.Sending F n) (hi : s.Inv) :
    txSelected s = some .txEnd ↔ n + 1 = 48 * s.params.tBit + s.params.tGap := by
  rw [← h.txEnd_iff hi, slotEnds, inGapSlot, decide_eq_true_iff, decide_eq_true_iff,
    (transmitterOperationFollowsTheSlot s).2.2.2.2]
  simp [h.busy]

/-- HS_START and TX_LOAD begin the transmission of `sel_frame` (R106, R138). -/
theorem tickState_sending_of_start (hi : s.Inv) (hs : hsStartWire s = true) :
    (tickState s).Sending s.input.selFrame 0 := by
  obtain ⟨-, hsleep, hdue⟩ := (hsStartWire_iff s).1 hs
  have hidle : s.tx.busy = false := hi.notSending (.inr hsleep)
  have htx : txNext s = { busy := true, frame := s.input.selFrame, pos := 0#6, cnt := 0 } := by
    simp [txNext, hidle, hs]
  have hhs : hsNext s = { s.hs with state := .send } := by simp [hsNext, hsleep, wakeDue, hdue]
  constructor <;> simp [htx, hhs]

/-- A legal `tx_pos` does not wrap when it counts on (R108). -/
theorem toNat_add_one_of_legal {p : Code6} (h : p.toNat ≤ 48) : (p + 1#6).toNat = p.toNat + 1 := by
  simp only [BitVec.toNat_add, BitVec.toNat_ofNat]
  omega

/-- Every tick but the last counts on in the slot or begins the next one (R107, R108). -/
theorem State.Sending.tickState_sending (h : s.Sending F n) (hi : s.Inv)
    (hn : n + 1 < 48 * s.params.tBit + s.params.tGap) : (tickState s).Sending F (n + 1) := by
  have hhs : hsNext s = s.hs := by simp [hsNext, h.state, h.busy]
  have helapsed := h.elapsed
  cases he : slotEnds s with
  | false =>
    have htx : txNext s = { s.tx with cnt := s.tx.cnt + 1 } := by simp [txNext, h.busy, he]
    constructor <;> simp [htx, hhs, h.state, h.busy, h.frame, ← Nat.add_assoc, helapsed]
  | true =>
    have hg : inGapSlot s = false := Bool.eq_false_iff.2 fun hg => hn.ne ((h.txEnd_iff hi).1 ⟨he, hg⟩)
    have htx : txNext s = { s.tx with pos := s.tx.pos + 1#6, cnt := 0 } := by simp [txNext, h.busy, he, hg]
    have hlast : s.tx.cnt + 1 = s.params.tBit := by
      have hp : s.tx.pos.toNat < 48 := lt_of_le_of_ne hi.posBound ((not_inGapSlot_iff s).1 hg)
      rw [← slotLength_bit s.params _ hp, (slotEnds_iff s).1 he]
    have hnext : (s.tx.pos.toNat + 1) * s.params.tBit = n + 1 := by
      rw [Nat.succ_mul]
      omega
    constructor <;> simp [htx, hhs, h.state, h.busy, h.frame, toNat_add_one_of_legal hi.posBound, hnext]

/-- `n` ticks after the start's successor the transmission is `n` ticks on, up to its last tick. -/
theorem iterate_tickState_sending (hi : s.Inv) (hs : hsStartWire s = true)
    (hn : n < 48 * s.params.tBit + s.params.tGap) : (tickState^[n + 1] s).Sending s.input.selFrame n := by
  induction n with
  | zero => exact tickState_sending_of_start hi hs
  | succ n ih =>
    rw [Function.iterate_succ_apply']
    refine (ih (Nat.lt_of_succ_lt hn)).tickState_sending (iterate_tickState_inv hi _) ?_
    rwa [iterate_tickState_params]

end

/-- Settles O33: the run completes, and `n` ticks into the transmission the slot says the line and the last tick. -/
theorem transmissionDrivesTheWaveform : Obligations.TransmissionDrivesTheWaveform := by
  intro s n hi hr ht hs hn
  have hsend := iterate_tickState_sending hi hs hn
  have hinv : (tickState^[n + 1] s).Inv := iterate_tickState_inv hi _
  have hline := hsend.txLine_eq hinv
  have hend := hsend.txSelected_eq_txEnd_iff hinv
  rw [iterate_tickState_params] at hline hend
  exact ⟨_, run_eq_iterate_tickState hi hr ht, hsend.busy, hsend.frame, hline, hend, hsend.hsSelected_eq_hsSendBusy⟩

end Sys2Proof.Machine
end

section
/-! PROOFS. The operation of RX in its registers and the pulse (R96), and the timebase (R83, R91). -/

namespace Sys2Proof.Machine

/-- Settles O9: the tests in their order, the change, the noise floor, the gap, then the bit count or the start gate. -/
theorem receiverOperationFollowsThePulse : Obligations.ReceiverOperationFollowsThePulse := by
  intro s
  by_cases hc : s.input.rxIn = s.rx.lastLevel
  · simp [rxSelected_eq, (not_changed_iff s).2 hc, hc]
  have hchg := (changed_iff s).2 hc
  by_cases hn : s.now - s.rx.lastT < s.params.tMin
  · simp [rxSelected_eq, hchg, hc, (isNoise_iff s).2 hn, hn, Nat.not_le.2 hn]
  have hmin := Nat.not_lt.1 hn
  have hloud := (not_isNoise_iff s).2 hmin
  by_cases hg : s.params.tGap ≤ s.now - s.rx.lastT
  · have hgap := (isGap_iff s).2 hg
    by_cases hb : s.rx.count = 0#6
    · simp [rxSelected_eq, hchg, hc, hloud, hmin, hgap, hg, Nat.not_lt.2 hg, (not_hasBits_iff s).2 hb, hb]
    · simp [rxSelected_eq, hchg, hc, hloud, hmin, hgap, hg, Nat.not_lt.2 hg, (hasBits_iff s).2 hb, hb]
  · have hshort := (not_isGap_iff s).2 (Nat.not_le.1 hg)
    cases hs : s.rx.started <;>
      simp [rxSelected_eq, hchg, hc, hloud, hmin, hshort, hg, Nat.not_le.1 hg, hs]

/-- Settles O4: TB's write fits, and the global map selects TB_TICK whenever `rst = 0`. -/
theorem tickOperationCountsUp : Obligations.TickOperationCountsUp := by
  intro s hv hfits
  have htick : exec .tbTick s = .next (s.withNow (s.now + 1)) := nowWrite_eq_next.2 ⟨hv, hfits, rfl⟩
  exact ⟨htick, fun hr => by simp [globalSelected_eq, hr]⟩

end Sys2Proof.Machine
end

section
/-! PROOFS. The bands of the quantization formula (R92, R93). -/

namespace Sys2Proof.Machine

/-- The band of `k`: from its own lower edge up to that of `k + 1`. -/
theorem quantize_eq_iff (p : Params) (d k : Nat) (h : 1 ≤ p.tBit) :
    quantize p d = k ↔ 100 * k * p.tBit ≤ 100 * d + p.tBit * p.tolPct ∧
      100 * d + p.tBit * p.tolPct < 100 * (k + 1) * p.tBit := by
  rw [← le_quantize_iff p d k h, ← Nat.not_le (b := 100 * d + _), ← le_quantize_iff p d (k + 1) h]
  omega

/-- The band of `k` with the defaults, in hundredths of a tick. -/
theorem quantize_standard_eq_iff (d k : Nat) :
    quantize .standard d = k ↔ 10400 * k ≤ 100 * d + 3640 ∧ 100 * d + 3640 < 10400 * (k + 1) := by
  have hband := quantize_eq_iff .standard d k (by decide)
  simp only [Params.standard] at hband ⊢
  omega

/-- A pulse of `k` whole bits gives `k`, as long as the tolerance is below one bit. -/
theorem quantize_mul_tBit (p : Params) (k : Nat) (hb : 1 ≤ p.tBit) (ht : p.tolPct < 100) :
    quantize p (k * p.tBit) = k := by
  have htol : p.tBit * p.tolPct < p.tBit * 100 := Nat.mul_lt_mul_of_pos_left ht hb
  rw [quantize_eq_iff p _ k hb, Nat.mul_assoc 100 k, Nat.mul_assoc 100 (k + 1), Nat.add_one_mul k]
  omega

/-- Settles O24: the band of the formula, its two readings with the defaults, and whole bits. -/
theorem quantizationBands : Obligations.QuantizationBands := by
  refine ⟨quantize_eq_iff, fun d k hk => ?_, fun d => ?_, quantize_mul_tBit⟩
  · rw [quantize_standard_eq_iff]
    omega
  · rw [quantize_standard_eq_iff]
    omega

end Sys2Proof.Machine
end

section
/-! PROOFS. The end of a transmission (R102, R110, R140). -/

namespace Sys2Proof.Machine

/-- An idle transmitter drives the idle level (R50). -/
theorem txLine_of_idle {t : Tx} (h : t.busy = false) : txLine t = true := by
  simp [txLine, h]

/-- TX_END is the last tick: it leaves TX idle and HS still in SEND (R109, R139). -/
theorem State.Sending.idle_after_last {s : State} {F : Frame} {n : Nat} (h : s.Sending F n) (hi : s.Inv)
    (hn : n + 1 = 48 * s.params.tBit + s.params.tGap) :
    (tickState s).hs.state = .send ∧ (tickState s).tx.busy = false := by
  obtain ⟨hend, hgap⟩ := (h.txEnd_iff hi).2 hn
  exact ⟨by simp [hsNext, h.state, h.busy], by simp [txNext, h.busy, hend, hgap]⟩

/-- Settles O34: the run completes, and its last tick is the transmission's, so it leaves HS in SEND with TX idle. -/
theorem transmissionEndsAfterItsExactLength : Obligations.TransmissionEndsAfterItsExactLength := by
  intro s hi hr ht hs
  obtain ⟨-, hgap, -⟩ := (valid_iff _).1 hi.instanceValid
  obtain ⟨n, hn⟩ : ∃ n, 48 * s.params.tBit + s.params.tGap = n + 1 := Nat.exists_eq_add_one.2 (by omega)
  have hsend : (tickState^[n + 1] s).Sending s.input.selFrame n := iterate_tickState_sending hi hs (by omega)
  obtain ⟨hstate, hidle⟩ := hsend.idle_after_last (iterate_tickState_inv hi _)
    (by rw [iterate_tickState_params, hn])
  rw [hn] at hr ht ⊢
  rw [← Function.iterate_succ_apply' tickState] at hstate hidle
  exact ⟨_, run_eq_iterate_tickState hi hr ht, hidle, txLine_of_idle hidle,
    (busy_or_hsSendDone_of_send hstate).resolve_left (Bool.eq_false_iff.1 hidle)⟩

end Sys2Proof.Machine
end

section
/-! PROOFS. What each TX operation writes, and the tick that performs it (R105 to R109). -/

namespace Sys2Proof.Machine

section
variable {s : State} (hv : s.params.valid = true) (hp : s.tx.pos.toNat ≤ 48)
  (hc : s.tx.cnt < slotLength s.params s.tx.pos.toNat)
include hv hp hc

/-- From legal registers TX's write goes on, the line showing the pre-state's level (R50). -/
theorem txWrite_of_legal (x : Tx) : txWrite s x = .next (s.withTx x (txLine s.tx)) :=
  txWrite_eq_next.2 ⟨hv, hp, hc, rfl⟩

/-- With TX idle, the line of the tick is 1. -/
theorem txWrite_of_idle (hb : s.tx.busy = false) (x : Tx) : txWrite s x = .next (s.withTx x true) := by
  rw [txWrite_of_legal hv hp hc, txLine_of_idle hb]

end

/-- In the trailing gap slot the line is 1 (R50). -/
theorem txLine_of_gapSlot {t : Tx} (h : t.pos = 48#6) : txLine t = true := by
  simp [txLine, h]

/-- Settles O28: the registers are written with themselves, and TX idle drives 1. -/
theorem txIdleChangesNothing : Obligations.TxIdleChangesNothing := by
  intro s hv hp hc hb
  obtain ⟨hsel, -⟩ := transmitterOperationFollowsTheSlot s
  exact ⟨txWrite_of_idle hv hp hc hb _, fun hs => hsel.2 ⟨hb, hs⟩⟩

/-- Settles O29: the line of the tick is that of TX idle, and bit 0 is the level of slot 0. -/
theorem txLoadLatchesTheSelectedFrame : Obligations.TxLoadLatchesTheSelectedFrame := by
  intro s hv hp hc hb
  obtain ⟨-, hsel, -⟩ := transmitterOperationFollowsTheSlot s
  exact ⟨txWrite_of_idle hv hp hc hb _, rfl, fun hs => hsel.2 ⟨hb, hs⟩⟩

/-- Settles O30: in a slot of at least one tick, the last tick is the one with `tx_cnt = len - 1`. -/
theorem txHoldCountsTheSlot : Obligations.TxHoldCountsTheSlot := by
  intro s hv hp hc
  obtain ⟨-, -, hsel, -⟩ := transmitterOperationFollowsTheSlot s
  have hlast : s.tx.cnt + 1 = slotLength s.params s.tx.pos.toNat ↔
      s.tx.cnt = slotLength s.params s.tx.pos.toNat - 1 := by omega
  exact ⟨txWrite_of_legal hv hp hc _, hsel.trans (and_congr_right' (not_congr hlast))⟩

/-- Settles O31: a bit slot's `tx_pos` counts on without a wrap, and its length is `T_BIT`. -/
theorem txNextBeginsTheNextSlot : Obligations.TxNextBeginsTheNextSlot := by
  intro s hv hp hc
  obtain ⟨-, -, -, hsel, -⟩ := transmitterOperationFollowsTheSlot s
  have hlen : slotLength s.params s.tx.pos.toNat = s.params.tBit := slotLength_bit _ _ hp
  refine ⟨⟨_, txWrite_of_legal hv hp.le (hlen ▸ hc) _, toNat_add_one_of_legal hp.le, rfl, rfl, rfl, rfl, rfl⟩,
    fun hb he => hsel.2 ⟨hb, by omega, fun hg => ?_⟩⟩
  rw [hg] at hp
  exact absurd hp (by decide)

/-- Settles O32: the gap slot drives 1, and its length is `T_GAP`. -/
theorem txEndReturnsToIdle : Obligations.TxEndReturnsToIdle := by
  intro s hv hg hc
  obtain ⟨-, -, -, -, hsel⟩ := transmitterOperationFollowsTheSlot s
  have hp : s.tx.pos.toNat = 48 := by rw [hg]; rfl
  have hlen : slotLength s.params s.tx.pos.toNat = s.params.tGap := by rw [hp, slotLength_gap]
  have hwrite : exec .txEnd s = .next (s.withTx { s.tx with busy := false, pos := 0#6, cnt := 0 } (txLine s.tx)) :=
    txWrite_of_legal hv hp.le (hlen ▸ hc) _
  rw [txLine_of_gapSlot hg] at hwrite
  exact ⟨hwrite, fun hb he => hsel.2 ⟨hb, by omega, hg⟩⟩

end Sys2Proof.Machine
end

section
/-! PROOFS. What each RX operation writes, and the tick that performs it (R117 to R122). -/

namespace Sys2Proof.Machine

/-- `rx_set` belongs to RX_GAP_EMIT alone (R127). -/
theorem selected_without_rxSet {s : State} {i : Instr} (h : rxSelected s = some i) (hi : i ≠ .rxGapEmit) :
    rxSelected s = some i ∧ rxSetWire s = false :=
  ⟨h, by simp [rxSetWire, h, hi]⟩

/-- From legal registers the write of a change goes on, with the bookkeeping of R116. -/
theorem rxOnChange_of_legal {s : State} (hv : s.params.valid = true) (hc : s.rx.count.toNat ≤ 48)
    (ht : s.rx.lastT ≤ s.now) (r : Rx) (o : RxOut) : rxOnChange s r o = .next (s.withRx (rxBookkeep s r) o) :=
  rxOnChange_eq_next.2 ⟨hv, hc, ht, rfl⟩

/-- Settles O18: RX's registers are written with themselves. -/
theorem rxIdleChangesNothing : Obligations.RxIdleChangesNothing := by
  intro s hv hc
  obtain ⟨hidle, -⟩ := receiverOperationFollowsThePulse s
  exact ⟨rxHold_eq_next.2 ⟨hv, hc, rfl⟩, fun _ hquiet =>
    selected_without_rxSet (hidle.2 (not_not.2 hquiet)) (by decide)⟩

/-- Settles O19: the write of a change with RX's own registers, in a pulse below the noise floor. -/
theorem rxNoiseOnlyBookkeeps : Obligations.RxNoiseOnlyBookkeeps := by
  intro s hv hc ht
  obtain ⟨-, hnoise, -⟩ := receiverOperationFollowsThePulse s
  exact ⟨rxOnChange_of_legal hv hc ht _ _, fun _ hchg hd =>
    selected_without_rxSet (hnoise.2 ⟨hchg, hd⟩) (by decide)⟩

/-- Settles O20: the write of RX_NOISE, in a pulse of data length before the first gap. -/
theorem rxPrestartDiscardsThePulse : Obligations.RxPrestartDiscardsThePulse := by
  intro s hv hc ht
  obtain ⟨-, -, hprestart, -⟩ := receiverOperationFollowsThePulse s
  exact ⟨rxOnChange_of_legal hv hc ht _ _, fun _ hchg hmin hs hshort =>
    selected_without_rxSet (hprestart.2 ⟨hchg, hmin, hshort, hs⟩) (by decide)⟩

/-- Settles O21: the write of a change with the cleared registers, in a gap after which no bit is held. -/
theorem rxGapEmptyStartsAccumulation : Obligations.RxGapEmptyStartsAccumulation := by
  intro s hv hc ht
  obtain ⟨-, -, -, -, hempty, -⟩ := receiverOperationFollowsThePulse s
  exact ⟨rxOnChange_of_legal hv hc ht _ _, fun _ hchg hmin hgap hzero =>
    selected_without_rxSet (hempty.2 ⟨hchg, hmin, hgap, hzero⟩) (by decide)⟩

/-- `frameEvent` with the count as a number (R51, R74). -/
theorem frameEvent_eq (r : Rx) :
    frameEvent r = { frmEvt := true, frmData := r.frame, frmBits := r.count, frmOk := decide (r.count.toNat = 48)
                     ovrEvt := false } := by
  have h48 : r.count = 48#6 ↔ r.count.toNat = 48 := BitVec.toNat_inj.symm
  simp [frameEvent, h48]

/-- Settles O22: the event reads the pre-state's registers, and the write clears them. -/
theorem rxGapEmitPresentsTheFrame : Obligations.RxGapEmitPresentsTheFrame := by
  intro s hv hc ht
  obtain ⟨-, -, -, -, -, hemit⟩ := receiverOperationFollowsThePulse s
  rw [← frameEvent_eq]
  refine ⟨rxOnChange_of_legal hv hc ht _ _, fun _ hchg hmin hgap hbits => hemit.2 ⟨hchg, hmin, hgap, fun hzero => ?_⟩⟩
  rw [hzero] at hbits
  exact absurd hbits (by decide)

/-- Settles O23: the run of accepted bits is set and no other, and `rx_count` moves on without a wrap. -/
theorem rxBitsFoldsThePulseIntoTheFrame : Obligations.RxBitsFoldsThePulseIntoTheFrame := by
  intro s hv hc ht
  obtain ⟨-, -, -, hdata, -⟩ := receiverOperationFollowsThePulse s
  exact ⟨⟨_, rxOnChange_of_legal hv hc ht _ _, fun i _ => frameBit_frameSetRun _ _ _ _ _ (add_acceptedBits_le hc),
    rxAccumulated_count_toNat hc, rfl, rfl, rfl, rfl, rfl⟩, fun _ hchg hmin hs hshort =>
    selected_without_rxSet (hdata.2 ⟨hchg, hmin, hshort, hs⟩) (by decide)⟩

end Sys2Proof.Machine
end

section
/-! PROOFS. RX along a run (R133, R129): what it reads of a state, and that without a change it holds. -/

namespace Sys2Proof.Machine

/-- After a tick, reset or not, the coming inputs are the ones that followed (R23). -/
theorem step_inputAt {s t : State} (hstep : step s = .next t) (k : Nat) : t.inputAt k = s.inputAt (k + 1) := by
  cases hr : s.input.rst with
  | true =>
    obtain ⟨-, rfl⟩ := (step_reset hr).1 hstep
    exact inputAt_of_endTick s _ rfl k
  | false =>
    obtain ⟨-, rfl⟩ := (step_tick hr).1 hstep
    exact tickState_inputAt s k

/-! ### Independence of the other units -/

/-- What RX reads of a state, its inputs apart, is the same in both: the parameters, `now` and RX's registers (R133). -/
structure State.RxAgrees (s s' : State) : Prop where
  params : s.params = s'.params
  now : s.now = s'.now
  rx : s.rx = s'.rx

section
variable {s s' : State} (h : s.RxAgrees s')
include h

theorem State.RxAgrees.pulseLength_eq : pulseLength s = pulseLength s' := by
  rw [pulseLength, pulseLength, h.now, h.rx]

theorem State.RxAgrees.isNoise_eq : isNoise s = isNoise s' := by
  rw [isNoise, isNoise, h.pulseLength_eq, h.params]

theorem State.RxAgrees.isGap_eq : isGap s = isGap s' := by
  rw [isGap, isGap, h.pulseLength_eq, h.params]

theorem State.RxAgrees.hasBits_eq : hasBits s = hasBits s' := by
  rw [hasBits, hasBits, h.rx]

theorem State.RxAgrees.pulseBits_eq : pulseBits s = pulseBits s' := by
  rw [pulseBits, pulseBits, h.pulseLength_eq, h.params]

theorem State.RxAgrees.acceptedBits_eq : acceptedBits s = acceptedBits s' := by
  rw [acceptedBits, acceptedBits, h.pulseBits_eq, h.rx]

theorem State.RxAgrees.rxAccumulated_eq : rxAccumulated s = rxAccumulated s' := by
  rw [rxAccumulated, rxAccumulated, h.acceptedBits_eq, h.rx]

section
variable (hin : s.input.rxIn = s'.input.rxIn)
include hin

theorem State.RxAgrees.changed_eq : changed s = changed s' := by
  rw [changed, changed, hin, h.rx]

theorem State.RxAgrees.rxNext_eq : rxNext s = rxNext s' := by
  simp only [rxNext, rxBookkeep, h.changed_eq hin, h.isNoise_eq, h.isGap_eq, h.rxAccumulated_eq, h.rx, h.now, hin]

theorem State.RxAgrees.rxEvents_eq : rxEvents s = rxEvents s' := by
  simp only [rxEvents, h.changed_eq hin, h.isNoise_eq, h.isGap_eq, h.hasBits_eq, h.acceptedBits_eq, h.pulseBits_eq,
    h.rx]

/-- A tick, reset or not, keeps the agreement and shows the same RX events. -/
theorem State.RxAgrees.of_step (hrst : s.input.rst = s'.input.rst) {t t' : State} (hstep : step s = .next t)
    (hstep' : step s' = .next t') : t.RxAgrees t' ∧ t.out.rx = t'.out.rx := by
  cases hr : s.input.rst with
  | true =>
    obtain ⟨-, rfl⟩ := (step_reset hr).1 hstep
    obtain ⟨-, rfl⟩ := (step_reset (hrst.symm.trans hr)).1 hstep'
    exact ⟨⟨h.params, rfl, congrArg Rx.initial h.params⟩, rfl⟩
  | false =>
    obtain ⟨-, rfl⟩ := (step_tick hr).1 hstep
    obtain ⟨-, rfl⟩ := (step_tick (hrst.symm.trans hr)).1 hstep'
    exact ⟨⟨h.params, congrArg Nat.succ h.now, h.rxNext_eq hin⟩, h.rxEvents_eq hin⟩

end
end

/-- Settles O27: by induction on the ticks, each of which keeps the agreement; the last one shows the events. -/
theorem receiverIsIndependentOfTheOtherUnits : Obligations.ReceiverIsIndependentOfTheOtherUnits := by
  intro n s s' t t' hparams hnow hrx hin hrun hrun'
  have h : s.RxAgrees s' := ⟨hparams, hnow, hrx⟩
  clear hparams hnow hrx
  induction n generalizing s s' with
  | zero =>
    obtain ⟨u, hstep, hend⟩ := run_succ_eq_next.1 hrun
    obtain ⟨u', hstep', hend'⟩ := run_succ_eq_next.1 hrun'
    cases hend
    cases hend'
    obtain ⟨hrst, hrxIn⟩ := hin 0 Nat.one_pos
    obtain ⟨hagrees, hevents⟩ := h.of_step hrxIn hrst hstep hstep'
    exact ⟨hagrees.now, hagrees.rx, hevents⟩
  | succ n ih =>
    obtain ⟨u, hstep, hrest⟩ := run_succ_eq_next.1 hrun
    obtain ⟨u', hstep', hrest'⟩ := run_succ_eq_next.1 hrun'
    obtain ⟨hrst, hrxIn⟩ := hin 0 (Nat.succ_pos _)
    refine ih u u' (fun k hk => ?_) hrest hrest' (h.of_step hrxIn hrst hstep hstep').1
    rw [step_inputAt hstep, step_inputAt hstep']
    exact hin (k + 1) (Nat.succ_lt_succ hk)

/-! ### A quiet line -/

/-- The inputs of the tick that follows `n` ticks. -/
theorem iterate_tickState_input (s : State) (n : Nat) : (tickState^[n] s).input = s.inputAt n := by
  induction n generalizing s with
  | zero => rfl
  | succ n ih => rw [Function.iterate_succ_apply, ih, tickState_inputAt]

theorem State.NoReset.mono {s : State} {m n : Nat} (h : s.NoReset n) (hmn : m ≤ n) : s.NoReset m :=
  fun k hk => h k (hk.trans_le hmn)

theorem State.TimeFits.mono {s : State} {m n : Nat} (h : s.TimeFits n) (hmn : m ≤ n) : s.TimeFits m := by
  unfold State.TimeFits at h ⊢
  omega

/-- A run without a reset, up to its last tick and the last tick itself. -/
theorem run_and_step_eq_iterate_tickState {s : State} {n : Nat} (h : s.Inv) (hr : s.NoReset (n + 1))
    (ht : s.TimeFits (n + 1)) :
    run n s = .next (tickState^[n] s) ∧ step (tickState^[n] s) = .next (tickState (tickState^[n] s)) := by
  have hrun := run_eq_iterate_tickState h (hr.mono n.le_succ) (ht.mono n.le_succ)
  obtain ⟨t, hinit, hlast⟩ := run_add_eq_next.1 (run_eq_iterate_tickState h hr ht)
  cases hrun.symm.trans hinit
  obtain ⟨u, hstep, hend⟩ := run_succ_eq_next.1 hlast
  cases hend
  rw [← Function.iterate_succ_apply' tickState]
  exact ⟨hrun, hstep⟩

section
variable {s : State} (h : changed s = false)
include h

theorem rxNext_of_not_changed : rxNext s = s.rx := if_pos h

theorem rxEvents_of_not_changed : rxEvents s = .quiet := if_pos (.inl h)

theorem rxSetWire_of_not_changed : rxSetWire s = false := by
  simp [rxSetWire, rxSelected_eq, h]

end

theorem not_changed_iterate_tickState {s : State} {n : Nat} (hrx : (tickState^[n] s).rx = s.rx)
    (hquiet : (s.inputAt n).rxIn = s.rx.lastLevel) : changed (tickState^[n] s) = false := by
  rw [not_changed_iff, iterate_tickState_input, hrx, hquiet]

/-- While the line keeps the last sampled level, RX keeps its registers (R117). -/
theorem iterate_tickState_rx_of_quiet {s : State} {n : Nat}
    (hquiet : ∀ k, k < n → (s.inputAt k).rxIn = s.rx.lastLevel) : (tickState^[n] s).rx = s.rx := by
  induction n with
  | zero => rfl
  | succ n ih =>
    have hrx := ih fun k hk => hquiet k (Nat.lt_succ_of_lt hk)
    have hchg := not_changed_iterate_tickState hrx (hquiet n n.lt_succ_self)
    rw [Function.iterate_succ_apply', tickState_rx, rxNext_of_not_changed hchg, hrx]

/-- Settles O26: the registers stay through the run, so its last tick has no change either. -/
theorem quietLineHoldsTheReceiver : Obligations.QuietLineHoldsTheReceiver := by
  intro s n h hr ht hquiet
  have hrx : (tickState^[n] s).rx = s.rx := iterate_tickState_rx_of_quiet fun k hk => hquiet k hk.le
  have hchg := not_changed_iterate_tickState hrx (hquiet n le_rfl)
  obtain ⟨hrun, hstep⟩ := run_and_step_eq_iterate_tickState h hr ht
  exact ⟨_, _, hrun, rxSetWire_of_not_changed hchg, hstep, (rxNext_of_not_changed hchg).trans hrx,
    rxEvents_of_not_changed hchg⟩

end Sys2Proof.Machine
end

section
/-! PROOFS. The round trip (R132): RX, tick by tick, on a line that carries the waveform of a frame. -/

namespace Sys2Proof.Machine

theorem roundTrips_iff (p : Params) :
    p.roundTrips = true ↔ p.tolPct < 100 ∧ p.tMin ≤ p.tBit ∧ 48 * p.tBit < p.tGap := by
  simp [Params.roundTrips, and_assoc]

/-! ### The waveform (R71) -/

section
variable {p : Params} (F : Frame)

theorem lineLevel_slot {i : Nat} (hb : 1 ≤ p.tBit) (hi : i < 48) : lineLevel p F (i * p.tBit) = frameBit F i := by
  rw [lineLevel, if_pos (Nat.mul_lt_mul_of_pos_right hi hb), Nat.mul_div_cancel i hb]

theorem lineLevel_of_gap {n : Nat} (h : 48 * p.tBit ≤ n) : lineLevel p F n = true := if_neg (Nat.not_lt.2 h)

/-- The level changes only where a slot begins, the trailing gap included. -/
theorem exists_slot_of_lineLevel_ne {n : Nat} (h : lineLevel p F (n + 1) ≠ lineLevel p F n) :
    ∃ i, i ≤ 48 ∧ n + 1 = i * p.tBit := by
  have hn : n < 48 * p.tBit := Nat.not_le.1 fun hge => h <| by
    rw [lineLevel_of_gap F hge, lineLevel_of_gap F (Nat.le_succ_of_le hge)]
  by_cases hdvd : p.tBit ∣ n + 1
  · refine ⟨(n + 1) / p.tBit, ?_, (Nat.div_mul_cancel hdvd).symm⟩
    exact Nat.div_le_of_le_mul (by rwa [Nat.mul_comm])
  · have hlt : n + 1 < 48 * p.tBit := lt_of_le_of_ne hn fun heq => hdvd (heq ▸ Nat.dvd_mul_left _ _)
    exact absurd (by rw [lineLevel, lineLevel, if_pos hlt, if_pos hn, Nat.succ_div_of_not_dvd hdvd]) h

end

/-! ### Reception -/

/-- `n` ticks of the waveform of `F`, begun at time `t₀`, have been sampled: RX holds the bits of the first `m` slots, and
the pulse now running began with slot `m`. -/
structure State.Receiving (s : State) (F : Frame) (t₀ m n : Nat) : Prop where
  now : s.now = t₀ + n
  started : s.rx.started = true
  slots : m ≤ 48
  begun : m * s.params.tBit < n
  lastT : s.rx.lastT = t₀ + m * s.params.tBit
  count : s.rx.count.toNat = m
  bits : ∀ i, i < m → frameBit s.rx.frame i = frameBit F i
  level : ∀ j, m * s.params.tBit ≤ j → j < n → lineLevel s.params F j = s.rx.lastLevel

section
variable {s : State} {F : Frame} {t₀ m n : Nat}

/-- The falling edge of slot 0 ends the gap before the frame, so RX starts anew (R120, R121). -/
theorem tickState_receiving_of_start (hi : s.Inv) (hp : s.params.roundTrips = true) (hF : frameBit F 0 = false)
    (hlevel : s.rx.lastLevel = true) (hgap : s.params.tGap ≤ s.now - s.rx.lastT) (hin : s.input.rxIn = false) :
    (tickState s).Receiving F s.now 0 1 := by
  obtain ⟨hbit, -⟩ := (valid_iff _).1 hi.instanceValid
  obtain ⟨-, hmin, hlong⟩ := (roundTrips_iff _).1 hp
  have hchg : changed s = true := by simp [changed, hlevel, hin]
  have hloud : isNoise s = false := (not_isNoise_iff s).2 (by omega)
  have hrx : rxNext s = rxBookkeep s (rxCleared s.rx) := by simp [rxNext, hchg, hloud, (isGap_iff s).2 hgap]
  exact {
    now := rfl
    started := by rw [tickState_rx, hrx]; rfl
    slots := Nat.zero_le _
    begun := by omega
    lastT := by rw [tickState_rx, hrx, Nat.zero_mul]; rfl
    count := by rw [tickState_rx, hrx]; rfl
    bits := fun _ h => absurd h (Nat.not_lt_zero _)
    level := fun j _ hj => by
      rw [Nat.lt_one_iff.1 hj, tickState_rx, hrx, ← Nat.zero_mul s.params.tBit, tickState_params,
        lineLevel_slot F hbit (by decide), hF]
      exact hin.symm }

/-- A tick within the pulse (R117). -/
theorem State.Receiving.of_not_changed (h : s.Receiving F t₀ m n) (hin : s.input.rxIn = lineLevel s.params F n)
    (hchg : changed s = false) : (tickState s).Receiving F t₀ m (n + 1) := by
  have hrx : (tickState s).rx = s.rx := rxNext_of_not_changed hchg
  exact {
    now := congrArg Nat.succ h.now
    started := hrx ▸ h.started
    slots := h.slots
    begun := Nat.lt_succ_of_lt h.begun
    lastT := hrx ▸ h.lastT
    count := hrx ▸ h.count
    bits := hrx ▸ h.bits
    level := fun j hm hj => by
      rw [hrx, tickState_params]
      obtain hlt | rfl := Nat.lt_succ_iff_lt_or_eq.1 hj
      · exact h.level j hm hlt
      · rw [← hin, (not_changed_iff s).1 hchg] }

/-- A change within the waveform comes where a slot begins. -/
theorem State.Receiving.exists_slot (h : s.Receiving F t₀ m n) (hin : s.input.rxIn = lineLevel s.params F n)
    (hchg : changed s = true) : ∃ k, m < k ∧ k ≤ 48 ∧ n = k * s.params.tBit := by
  obtain ⟨n, rfl⟩ : ∃ l, n = l + 1 := Nat.exists_eq_add_one.2 (Nat.zero_lt_of_lt h.begun)
  have hne : lineLevel s.params F (n + 1) ≠ lineLevel s.params F n := by
    rw [← hin, h.level n (Nat.lt_succ_iff.1 h.begun) n.lt_succ_self]
    exact (changed_iff s).1 hchg
  obtain ⟨k, hk, hn⟩ := exists_slot_of_lineLevel_ne F hne
  have hbegun := h.begun
  rw [hn] at hbegun
  exact ⟨k, Nat.lt_of_mul_lt_mul_right hbegun, hk, hn⟩

section
variable {k : Nat} (h : s.Receiving F t₀ m (k * s.params.tBit)) (hp : s.params.roundTrips = true)
include h

/-- A pulse of whole slots lasts as long as they do. -/
theorem State.Receiving.pulseLength_eq : pulseLength s = (k - m) * s.params.tBit := by
  rw [pulseLength, h.now, h.lastT, Nat.sub_mul, Nat.add_sub_add_left]

include hp

/-- With zero jitter a pulse gives as many bits as it has slots (R93). -/
theorem State.Receiving.pulseBits_eq (hi : s.Inv) : pulseBits s = k - m := by
  obtain ⟨hbit, -⟩ := (valid_iff _).1 hi.instanceValid
  obtain ⟨htol, -⟩ := (roundTrips_iff _).1 hp
  rw [pulseBits, h.pulseLength_eq, quantize_mul_tBit _ _ hbit htol]

theorem State.Receiving.acceptedBits_eq (hi : s.Inv) (hk : k ≤ 48) : acceptedBits s = k - m := by
  rw [acceptedBits, h.pulseBits_eq hp hi, h.count]
  omega

/-- A pulse of one to 48 slots is neither noise nor a gap (R12). -/
theorem State.Receiving.not_noise_not_gap (hmk : m < k) (hk : k ≤ 48) : isNoise s = false ∧ isGap s = false := by
  obtain ⟨-, hmin, hlong⟩ := (roundTrips_iff _).1 hp
  have hlow : 1 * s.params.tBit ≤ (k - m) * s.params.tBit := Nat.mul_le_mul_right _ (by omega)
  have hhigh : (k - m) * s.params.tBit ≤ 48 * s.params.tBit := Nat.mul_le_mul_right _ (by omega)
  rw [← h.pulseLength_eq, pulseLength] at hlow hhigh
  exact ⟨(not_isNoise_iff s).2 (by omega), (not_isGap_iff s).2 (by omega)⟩

/-- The change that ends a pulse folds its slots into the frame (R122). -/
theorem State.Receiving.of_changed (hi : s.Inv) (hmk : m < k) (hk : k ≤ 48)
    (hin : s.input.rxIn = lineLevel s.params F (k * s.params.tBit)) (hchg : changed s = true) :
    (tickState s).Receiving F t₀ k (k * s.params.tBit + 1) ∧ rxEvents s = .quiet := by
  obtain ⟨hbit, -⟩ := (valid_iff _).1 hi.instanceValid
  obtain ⟨hloud, hshort⟩ := h.not_noise_not_gap hp hmk hk
  have hbits := h.pulseBits_eq hp hi
  have haccepted := h.acceptedBits_eq hp hi hk
  have hrx : rxNext s = rxBookkeep s (rxAccumulated s) := by simp [rxNext, hchg, hloud, hshort, h.started]
  refine ⟨?_, by simp [rxEvents, hchg, hloud, hshort, h.started, hbits, haccepted, overrunEvent, RxOut.quiet]⟩
  exact {
    now := congrArg Nat.succ h.now
    started := by rw [tickState_rx, hrx]; exact h.started
    slots := hk
    begun := Nat.lt_succ_self _
    lastT := by rw [tickState_rx, hrx]; exact h.now
    count := by
      rw [tickState_rx, hrx]
      refine (rxAccumulated_count_toNat hi.countBound).trans ?_
      rw [h.count, haccepted]
      omega
    bits := fun i hik => by
      rw [tickState_rx, hrx]
      refine (frameBit_frameSetRun _ _ _ _ _ (add_acceptedBits_le hi.countBound)).trans ?_
      rw [h.count, haccepted]
      by_cases hmi : m ≤ i
      · rw [if_pos (by omega), ← lineLevel_slot F hbit (by omega),
          h.level _ (Nat.mul_le_mul_right _ hmi) (Nat.mul_lt_mul_of_pos_right hik hbit)]
      · rw [if_neg (by omega), h.bits i (by omega)]
    level := fun j hkj hj => by
      obtain rfl : k * s.params.tBit = j := le_antisymm hkj (Nat.lt_succ_iff.1 hj)
      rw [tickState_rx, hrx]
      exact hin.symm }

end

/-- Each tick of the waveform after the first keeps RX receiving, and shows no event. -/
theorem State.Receiving.tickState_receiving (h : s.Receiving F t₀ m n) (hi : s.Inv)
    (hp : s.params.roundTrips = true) (hin : s.input.rxIn = lineLevel s.params F n) :
    (∃ k, (tickState s).Receiving F t₀ k (n + 1)) ∧ rxEvents s = .quiet := by
  cases hchg : changed s with
  | false => exact ⟨⟨m, h.of_not_changed hin hchg⟩, rxEvents_of_not_changed hchg⟩
  | true =>
    obtain ⟨k, hmk, hk, rfl⟩ := h.exists_slot hin hchg
    obtain ⟨hnext, hquiet⟩ := h.of_changed hp hi hmk hk hin hchg
    exact ⟨⟨k, hnext⟩, hquiet⟩

/-- In the trailing gap of a frame that ends low, RX holds the whole frame, and the line is high. -/
theorem State.Receiving.whole_frame (h : s.Receiving F t₀ m n) (hi : s.Inv) (hF : frameBit F 47 = false)
    (hn : 48 * s.params.tBit < n) : m = 48 ∧ s.rx.lastLevel = true ∧ s.rx.frame = F := by
  obtain ⟨hbit, -⟩ := (valid_iff _).1 hi.instanceValid
  have hhigh : s.rx.lastLevel = true := by
    rw [← h.level _ (Nat.mul_le_mul_right _ h.slots) hn, lineLevel_of_gap F le_rfl]
  have hm : m = 48 := le_antisymm h.slots <| Nat.not_lt.1 fun hlt => by
    have hlow := h.level (47 * s.params.tBit) (Nat.mul_le_mul_right _ (by omega)) (by omega)
    rw [lineLevel_slot F hbit (by decide), hF, hhigh] at hlow
    exact Bool.noConfusion hlow
  exact ⟨hm, hhigh, frame_ext _ _ fun i hi48 => h.bits i (hm ▸ hi48)⟩

/-- The falling edge after the trailing gap presents the frame (R121). -/
theorem State.Receiving.emits (h : s.Receiving F t₀ m n) (hi : s.Inv) (hp : s.params.roundTrips = true)
    (hF : frameBit F 47 = false) (hn : 48 * s.params.tBit + s.params.tGap ≤ n) (hin : s.input.rxIn = false) :
    rxEvents s = { frmEvt := true, frmData := F, frmBits := 48#6, frmOk := true, ovrEvt := false } := by
  obtain ⟨-, hgap, -⟩ := (valid_iff _).1 hi.instanceValid
  obtain ⟨-, hmin, hlong⟩ := (roundTrips_iff _).1 hp
  obtain ⟨rfl, hhigh, hframe⟩ := h.whole_frame hi hF (by omega)
  have hcount : s.rx.count = 48#6 := BitVec.eq_of_toNat_eq h.count
  have hnow := h.now
  have hlastT := h.lastT
  have hchg : changed s = true := by simp [changed, hhigh, hin]
  have hloud : isNoise s = false := (not_isNoise_iff s).2 (by omega)
  have hend : isGap s = true := (isGap_iff s).2 (by omega)
  simp [rxEvents, hchg, hloud, hend, hasBits, hcount, frameEvent, hframe]

/-- `tickState_receiving` along a run. -/
theorem iterate_tickState_receiving_succ (h : (tickState^[n] s).Receiving F t₀ m n) (hi : s.Inv)
    (hp : s.params.roundTrips = true) (hin : (s.inputAt n).rxIn = lineLevel s.params F n) :
    (∃ k, (tickState^[n + 1] s).Receiving F t₀ k (n + 1)) ∧ rxEvents (tickState^[n] s) = .quiet := by
  rw [Function.iterate_succ_apply']
  refine h.tickState_receiving (iterate_tickState_inv hi n) ?_ ?_
  · rwa [iterate_tickState_params]
  · rwa [iterate_tickState_input, iterate_tickState_params]

/-- From its first tick on, RX receives the waveform for as long as the line carries it. -/
theorem iterate_tickState_receiving {l : Nat} (hstart : (tickState s).Receiving F t₀ 0 1) (hi : s.Inv)
    (hp : s.params.roundTrips = true) (hin : ∀ k, k < l → (s.inputAt k).rxIn = lineLevel s.params F k)
    (hn : 1 ≤ n) (hnl : n ≤ l) : ∃ m, (tickState^[n] s).Receiving F t₀ m n := by
  induction n, hn using Nat.le_induction with
  | base => exact ⟨0, hstart⟩
  | succ n _ ih =>
    obtain ⟨m, h⟩ := ih (Nat.le_of_succ_le hnl)
    exact (iterate_tickState_receiving_succ h hi hp (hin n hnl)).1

end

/-- Settles O59: the frame's first edge starts RX, each later tick of the waveform keeps it receiving without an event,
and the last edge presents the frame. -/
theorem transmittedFrameRoundTrips : Obligations.TransmittedFrameRoundTrips := by
  intro s F G hi hp h0 h47 hG hlevel hgap hr ht hin hlast
  obtain ⟨hbit, -⟩ := (valid_iff _).1 hi.instanceValid
  have hrun (n : Nat) (hn : n ≤ 48 * s.params.tBit + G) : run (n + 1) s = .next (tickState (tickState^[n] s)) := by
    rw [← Function.iterate_succ_apply' tickState]
    exact run_eq_iterate_tickState hi (hr.mono (Nat.succ_le_succ hn)) (ht.mono (Nat.succ_le_succ hn))
  have hfirst : s.input.rxIn = false := by
    rw [State.input, hin 0 (by omega), ← Nat.zero_mul s.params.tBit, lineLevel_slot F hbit (by decide), h0]
  have hstart := tickState_receiving_of_start hi hp h0 hlevel hgap hfirst
  refine ⟨⟨_, hrun _ le_rfl, ?_⟩, fun n hn1 hn => ⟨_, hrun n hn.le, ?_⟩⟩
  · obtain ⟨m, h⟩ := iterate_tickState_receiving hstart hi hp hin (by omega) le_rfl
    refine h.emits (iterate_tickState_inv hi _) ?_ h47 ?_ ?_
    · rwa [iterate_tickState_params]
    · rw [iterate_tickState_params]
      omega
    · rwa [iterate_tickState_input]
  · obtain ⟨m, h⟩ := iterate_tickState_receiving hstart hi hp hin hn1 hn.le
    exact (iterate_tickState_receiving_succ h hi hp (hin n hn)).2

end Sys2Proof.Machine
end

section
/-! PROOFS. What each HS and FLAG operation writes, and the tick that performs it (R137 to R144, R149 to R155). -/

namespace Sys2Proof.Machine

section
variable {s : State} (hv : s.params.valid = true)
include hv

/-- From a legal code HS's write goes on. -/
theorem hsWrite_of_legal (hst : s.hs.state ≠ .reserved) (h : Hs) (b : Bool) : hsWrite s h b = .next (s.withHs h b) :=
  hsWrite_eq_next.2 ⟨hv, hst, rfl⟩

/-- FLAG's write goes on under any admitted parameters. -/
theorem flagWrite_of_valid (b : Bool) : flagWrite s b = .next (s.withFlag b) :=
  flagWrite_eq_next.2 ⟨hv, rfl⟩

section
variable (hw : s.hs.state = .wait) (ht : s.hs.tSendDone ≤ s.now)
include hw ht

/-- In WAIT, with a latency that is a natural, HS's write goes on. -/
theorem hsWaitWrite_of_wait (h : Hs) (b : Bool) : hsWaitWrite s h b = .next (s.withHs h b) :=
  hsWaitWrite_eq_next.2 ⟨hv, by simp [hw], ht, rfl⟩

/-- From WAIT HS goes to SLEEP when the wake time fits (R202). -/
theorem hsSleepUntil_of_wait {n : Nat} (hn : n < 2 ^ s.params.tsW) (b : Bool) :
    hsSleepUntil s n b = .next (s.withHs { s.hs with state := .sleep, wakeAt := n } b) :=
  hsSleepUntil_eq_next.2 ⟨hv, by simp [hw], ht, hn, rfl⟩

end
end

/-- `hs_start` and `hs_clr` belong to HS_START alone (R136). -/
theorem selected_without_hsStart {s : State} {i : Instr} (h : hsSelected s = some i) (hi : i ≠ .hsStart) :
    hsSelected s = some i ∧ hsStartWire s = false :=
  ⟨h, by simp [hsStartWire, h, hi]⟩

/-- Settles O36: HS's registers are written with themselves, before the wake time. -/
theorem hsNapChangesNothing : Obligations.HsNapChangesNothing := by
  intro s hv hst
  obtain ⟨hnap, -⟩ := handshakeOperationFollowsItsState s
  exact ⟨hsWrite_of_legal hv (by simp [hst]) _ _, fun hearly =>
    selected_without_hsStart (hnap.2 ⟨hst, hearly⟩) (by decide)⟩

/-- Settles O37: the handoff is 1 once the wake time has come; TX idle then loads, and FLAG clears whatever `rx_set` is. -/
theorem hsStartLoadsAndClears : Obligations.HsStartLoadsAndClears := by
  intro s hv hst
  refine ⟨hsWrite_of_legal hv (by simp [hst]) _ _, fun hr hdue => ?_⟩
  obtain ⟨-, hstart, -⟩ := handshakeOperationFollowsItsState s
  obtain ⟨-, hload, -⟩ := transmitterOperationFollowsTheSlot s
  have hwire : hsStartWire s = true := (hsStartWire_iff s).2 ⟨hr, hst, hdue⟩
  refine ⟨hstart.2 ⟨hst, hdue⟩, hwire, fun hidle => hload.2 ⟨hidle, hwire⟩, ?_⟩
  cases hset : rxSetWire s <;> simp [flagSelected_eq, hwire, hset]

/-- Settles O38: HS's registers are written with themselves, while TX is busy. -/
theorem hsSendBusyChangesNothing : Obligations.HsSendBusyChangesNothing := by
  intro s hv hst
  obtain ⟨-, -, hbusy, -⟩ := handshakeOperationFollowsItsState s
  exact ⟨hsWrite_of_legal hv (by simp [hst]) _ _, fun hb =>
    selected_without_hsStart (hbusy.2 ⟨hst, hb⟩) (by decide)⟩

/-- Settles O39: HS's write in SEND, once TX is idle; the flag is in neither. -/
theorem hsSendDoneRecordsTheTime : Obligations.HsSendDoneRecordsTheTime := by
  intro s hv hst
  obtain ⟨-, -, -, hdone, -⟩ := handshakeOperationFollowsItsState s
  exact ⟨hsWrite_of_legal hv (by simp [hst]) _ _, fun hidle =>
    selected_without_hsStart (hdone.2 ⟨hst, hidle⟩) (by decide)⟩

/-- Settles O40: HS's registers are written with themselves, before the timeout. -/
theorem hsWaitPollChangesNothing : Obligations.HsWaitPollChangesNothing := by
  intro s hv hw ht
  obtain ⟨-, -, -, -, hpoll, -⟩ := handshakeOperationFollowsItsState s
  exact ⟨hsWaitWrite_of_wait hv hw ht _ _, fun hf hearly =>
    selected_without_hsStart (hpoll.2 ⟨hw, hf, Nat.not_le.2 hearly⟩) (by decide)⟩

/-- Settles O41: the statement's wake time is `ackWakeAt`, and the flag alone selects the ack. -/
theorem hsAckSchedulesTheGapRemainder : Obligations.HsAckSchedulesTheGapRemainder := by
  intro s hv hw ht lat wake hfits
  obtain ⟨-, -, -, -, -, hack, -⟩ := handshakeOperationFollowsItsState s
  exact ⟨hsSleepUntil_of_wait hv hw ht hfits _, fun hf => selected_without_hsStart (hack.2 ⟨hw, hf⟩) (by decide)⟩

/-- Settles O42: the wake time is `timeoutWakeAt`, with the strobe raised. -/
theorem hsTimeoutReportsAndSchedulesTheFloor : Obligations.HsTimeoutReportsAndSchedulesTheFloor := by
  intro s hv hw ht hfits
  obtain ⟨-, -, -, -, -, -, htimeout, -⟩ := handshakeOperationFollowsItsState s
  exact ⟨hsSleepUntil_of_wait hv hw ht hfits _, fun hf hlate =>
    selected_without_hsStart (htimeout.2 ⟨hw, hf, hlate⟩) (by decide)⟩

/-- Settles O43: the code 3 selects HS_RESERVED alone, and a tick goes on only from a legal code (`TickOk`). -/
theorem hsReservedFaults : Obligations.HsReservedFaults := by
  intro s hv
  obtain ⟨-, -, -, -, -, -, -, hreserved⟩ := handshakeOperationFollowsItsState s
  exact ⟨onInstance_of_valid _ hv, fun hst => ⟨hreserved.2 hst, fun t hr hstep =>
    ((step_tick hr).1 hstep).1.stateLegal hst⟩⟩

/-- Settles O45: FLAG's write with its own value, 1 and 0, and the flag map on the two handoffs. -/
theorem flagHoldsSetsAndClears : Obligations.FlagHoldsSetsAndClears := by
  intro s hv
  refine ⟨⟨flagWrite_of_valid hv _, fun hclr hset => ?_⟩, ⟨flagWrite_of_valid hv _, fun hclr hset => ?_⟩,
    ⟨flagWrite_of_valid hv _, fun hclr hset => ?_⟩⟩
  all_goals simp [flagSelected_eq, hclr, hset]

/-- Settles O46: `hs_clr` is tested before `rx_set`, which is raised by RX_GAP_EMIT, the operation that shows FRAME. -/
theorem flagClearWinsOverSet : Obligations.FlagClearWinsOverSet := by
  intro s hv
  refine ⟨flagWrite_of_valid hv _, fun hclr hset => ⟨by simp [flagSelected_eq, hclr, hset], fun t hstep => ?_⟩⟩
  have hr : s.input.rst = false := ((rxSetWire_iff s).1 hset).1
  obtain ⟨-, -, hemit⟩ := handoffsFollowTheOperations s hr
  obtain ⟨hframe, -⟩ := tickStrobesExactlyItsEvents s t hr hstep
  refine ⟨?_, hframe.2 (hemit.1 hset).1⟩
  obtain ⟨-, rfl⟩ := (step_tick hr).1 hstep
  exact if_pos hclr

/-- Settles O47: of a set flag's next value only `hs_clr` decides, and that is HS_START. -/
theorem responseFlagStaysUntilTheNextStart : Obligations.ResponseFlagStaysUntilTheNextStart := by
  intro s t hstep hr hf
  obtain ⟨hwire, -⟩ := handoffsFollowTheOperations s hr
  obtain ⟨-, rfl⟩ := (step_tick hr).1 hstep
  rw [← hwire, tickState_respFlag]
  simp [flagNext, hf]

end Sys2Proof.Machine
end

section
/-! PROOFS. HS along a run (R145 to R147): how long it naps after an ack or a timeout, and how long it waits. -/

namespace Sys2Proof.Machine

theorem iterate_tickState_now (s : State) (n : Nat) : (tickState^[n] s).now = s.now + n := by
  induction n with
  | zero => rfl
  | succ n ih => rw [Function.iterate_succ_apply', tickState_now, ih, Nat.add_assoc]

section
variable {s : State}

/-! ### HS's next registers, by the operation it performs -/

theorem hsNext_of_nap (hst : s.hs.state = .sleep) (hearly : s.now < s.hs.wakeAt) : hsNext s = s.hs := by
  simp [hsNext, hst, wakeDue, hearly]

theorem hsNext_of_sendDone (hst : s.hs.state = .send) (hidle : s.tx.busy = false) :
    hsNext s = { s.hs with state := .wait, tSendDone := s.now } := by
  simp [hsNext, hst, hidle]

theorem hsNext_of_poll (hw : s.hs.state = .wait) (hf : s.respFlag = false) (hl : timeoutDue s = false) :
    hsNext s = s.hs := by
  simp [hsNext, hw, hf, hl]

theorem hsNext_of_ack (hw : s.hs.state = .wait) (hf : s.respFlag = true) :
    hsNext s = { s.hs with state := .sleep, wakeAt := ackWakeAt s } := by
  simp [hsNext, hw, hf]

theorem hsNext_of_timeout (hw : s.hs.state = .wait) (hf : s.respFlag = false) (hl : timeoutDue s = true) :
    hsNext s = { s.hs with state := .sleep, wakeAt := timeoutWakeAt s } := by
  simp [hsNext, hw, hf, hl]

/-! ### The nap -/

/-- HS naps until its wake time, or not at all when that has passed (R137). -/
theorem iterate_tickState_hs_of_sleep (hst : s.hs.state = .sleep) {n : Nat} (hn : n ≤ s.hs.wakeAt - s.now) :
    (tickState^[n] s).hs = s.hs := by
  induction n with
  | zero => rfl
  | succ n ih =>
    have hhs := ih (Nat.le_of_succ_le hn)
    rw [Function.iterate_succ_apply', tickState_hs, hsNext_of_nap (by rw [hhs, hst]), hhs]
    rw [hhs, iterate_tickState_now]
    omega

/-- A tick that leaves WAIT with the wake time `w` is followed by naps until `w`, or until the next tick when `w` has
passed by then, and HS_START (R145). -/
theorem hsSelected_after_wait {w k : Nat} (hnext : hsNext s = { s.hs with state := .sleep, wakeAt := w })
    (hk1 : 1 ≤ k) (hk : k ≤ max (w - s.now) 1) :
    hsSelected (tickState^[k] s) = some (if k < max (w - s.now) 1 then .hsNap else .hsStart) := by
  obtain ⟨j, rfl⟩ : ∃ j, k = j + 1 := Nat.exists_eq_add_one.2 hk1
  have hst : (tickState s).hs.state = .sleep := by rw [tickState_hs, hnext]
  have hwake : (tickState s).hs.wakeAt = w := by rw [tickState_hs, hnext]
  have hhs : (tickState^[j] (tickState s)).hs = (tickState s).hs :=
    iterate_tickState_hs_of_sleep hst (by rw [hwake, tickState_now]; omega)
  rw [Function.iterate_succ_apply]
  obtain ⟨hnap, hstart, -⟩ := handshakeOperationFollowsItsState (tickState^[j] (tickState s))
  rw [hhs, hst, hwake, iterate_tickState_now, tickState_now] at hnap hstart
  split_ifs with hlt
  · exact hnap.2 ⟨rfl, by omega⟩
  · exact hstart.2 ⟨rfl, by omega⟩

/-- The wait of R145 after an ack: the rounded remainder, which is at least one tick, or one tick. -/
theorem max_ackWakeAt_sub_now (hv : s.params.valid = true) :
    max (ackWakeAt s - s.now) 1 =
      if latency s < s.params.tGap then ceilR s.params (s.params.tGap - latency s) else 1 := by
  obtain ⟨-, -, hres, -⟩ := (valid_iff _).1 hv
  have hceil := (ceilR_bounds s.params (s.params.tGap - latency s) hres).1
  unfold ackWakeAt
  split_ifs <;> omega

theorem hsSelected_after_timeout (hsel : hsSelected s = some .hsTimeout) {k : Nat} (hk1 : 1 ≤ k)
    (hk : k ≤ max s.params.tToGap 1) :
    hsSelected (tickState^[k] s) = some (if k < max s.params.tToGap 1 then .hsNap else .hsStart) := by
  obtain ⟨-, -, -, -, -, -, htimeout, -⟩ := handshakeOperationFollowsItsState s
  obtain ⟨hw, hf, hlate⟩ := htimeout.1 hsel
  have hfloor : timeoutWakeAt s - s.now = s.params.tToGap := Nat.add_sub_cancel_left ..
  have hnap := hsSelected_after_wait (hsNext_of_timeout hw hf ((timeoutDue_iff s).2 hlate)) (k := k) hk1
  rw [hfloor] at hnap
  exact hnap hk

/-! ### The wait for a response -/

/-- HS leaves WAIT at the timeout at the latest, since the latency grows by one with every poll (R141 to R143). -/
theorem exists_iterate_tickState_sleep (hw : s.hs.state = .wait) (ht : s.hs.tSendDone ≤ s.now) :
    ∃ k, k ≤ s.params.tAckTo - latency s ∧ (tickState^[k + 1] s).hs.state = .sleep := by
  induction hb : s.params.tAckTo - latency s generalizing s with
  | zero =>
    refine ⟨0, le_rfl, ?_⟩
    have hl : timeoutDue s = true := decide_eq_true (Nat.le_of_sub_eq_zero hb)
    cases hf : s.respFlag with
    | true => simp [hsNext_of_ack hw hf]
    | false => simp [hsNext_of_timeout hw hf hl]
  | succ b ih =>
    cases hf : s.respFlag with
    | true => exact ⟨0, Nat.zero_le _, by simp [hsNext_of_ack hw hf]⟩
    | false =>
      have hl : timeoutDue s = false := decide_eq_false (by omega)
      have hhs : (tickState s).hs = s.hs := hsNext_of_poll hw hf hl
      have hrest : (tickState s).params.tAckTo - latency (tickState s) = b := by
        unfold latency at hb ⊢
        rw [hhs, tickState_now, tickState_params]
        omega
      obtain ⟨k, hk, hsleep⟩ := ih (hhs ▸ hw) (by rw [hhs, tickState_now]; omega) hrest
      exact ⟨k + 1, Nat.succ_le_succ hk, hsleep⟩

/-- Without a response HS polls until the latency reaches the timeout (R141). -/
theorem iterate_tickState_hs_of_wait (hw : s.hs.state = .wait) {n : Nat}
    (hflag : ∀ k, k < n → (tickState^[k] s).respFlag = false) (hn : n ≤ s.params.tAckTo - latency s) :
    (tickState^[n] s).hs = s.hs := by
  induction n with
  | zero => rfl
  | succ n ih =>
    have hhs := ih (fun k hk => hflag k (Nat.lt_succ_of_lt hk)) (Nat.le_of_succ_le hn)
    have hl : timeoutDue (tickState^[n] s) = false := by
      unfold latency at hn
      rw [not_timeoutDue_iff, hhs, iterate_tickState_now, iterate_tickState_params]
      omega
    rw [Function.iterate_succ_apply', tickState_hs, hsNext_of_poll (hhs ▸ hw) (hflag n n.lt_succ_self) hl, hhs]

/-- From HS_SEND_DONE on without a response, HS polls until the timeout, which comes one tick later at the earliest. -/
theorem hsSelected_after_sendDone {k : Nat} (hsel : hsSelected s = some .hsSendDone)
    (hflag : ∀ j, 1 ≤ j → j ≤ k → (tickState^[j] s).respFlag = false) (hk1 : 1 ≤ k) (hk : k ≤ max s.params.tAckTo 1) :
    hsSelected (tickState^[k] s) = some (if k < max s.params.tAckTo 1 then .hsWaitPoll else .hsTimeout) := by
  obtain ⟨j, rfl⟩ : ∃ j, k = j + 1 := Nat.exists_eq_add_one.2 hk1
  obtain ⟨-, -, -, hdone, -⟩ := handshakeOperationFollowsItsState s
  obtain ⟨hsend, hidle⟩ := hdone.1 hsel
  have hnext : (tickState s).hs = { s.hs with state := .wait, tSendDone := s.now } := hsNext_of_sendDone hsend hidle
  have hlat : latency (tickState s) = 1 := by rw [latency, hnext, tickState_now, Nat.add_sub_cancel_left]
  have hhs : (tickState^[j] (tickState s)).hs = (tickState s).hs :=
    iterate_tickState_hs_of_wait (by rw [hnext]) (fun i hi => hflag (i + 1) (Nat.le_add_left ..) (by omega))
      (by rw [hlat, tickState_params]; omega)
  have hf : (tickState^[j] (tickState s)).respFlag = false := hflag (j + 1) hk1 le_rfl
  rw [Function.iterate_succ_apply]
  obtain ⟨-, -, -, -, hpoll, -, htimeout, -⟩ := handshakeOperationFollowsItsState (tickState^[j] (tickState s))
  rw [hhs, hnext, hf, iterate_tickState_now, iterate_tickState_params, tickState_now, tickState_params]
    at hpoll htimeout
  dsimp only at hpoll htimeout
  split_ifs with hlt
  · exact hpoll.2 ⟨rfl, rfl, by omega⟩
  · exact htimeout.2 ⟨rfl, rfl, by omega⟩

end

/-- Settles O48: HS_ACK leaves WAIT with the wake time of R142, which is one wait after `now`. -/
theorem ackKeepsTheCadence : Obligations.AckKeepsTheCadence := by
  intro s k hi hw hf lat wait hr ht hk1 hk
  have hwait : max (ackWakeAt s - s.now) 1 = wait := max_ackWakeAt_sub_now hi.instanceValid
  have hsel := hsSelected_after_wait (hsNext_of_ack hw hf) (k := k) hk1 (by rwa [hwait])
  rw [hwait] at hsel
  refine ⟨_, run_eq_iterate_tickState hi (hr.mono hk) (ht.mono hk), hsel, fun hkw hlat hone => ?_⟩
  have hrem : wait = s.params.tGap - lat := (if_pos hlat).trans (ceilR_one _ _ hone)
  have hsent := hi.sendDoneBound
  rw [iterate_tickState_now]
  omega

/-- Settles O49: the run completes, and HS_TIMEOUT leaves WAIT with the floor as its wake time. -/
theorem timeoutKeepsTheFloor : Obligations.TimeoutKeepsTheFloor := by
  intro s k hi hsel hr ht hk1 hk
  exact ⟨_, run_eq_iterate_tickState hi (hr.mono hk) (ht.mono hk), hsSelected_after_timeout hsel hk1 hk⟩

/-- Settles O50: the tick that leaves WAIT is within the bound, and the run completes up to it. -/
theorem waitEndsByTheTimeout : Obligations.WaitEndsByTheTimeout := by
  intro s hi hw bound hr ht
  obtain ⟨k, hk, hsleep⟩ := exists_iterate_tickState_sleep hw hi.sendDoneBound
  have hle : k + 1 ≤ bound + 1 := Nat.succ_le_succ hk
  exact ⟨k, _, hk, run_eq_iterate_tickState hi (hr.mono hle) (ht.mono hle), hsleep⟩

end Sys2Proof.Machine
end

section
/-! PROOFS. A whole cycle without a response (R146): its four phases, and the operation HS performs in each. -/

namespace Sys2Proof.Machine

/-- On a quiet line the flag that HS_START cleared stays clear (R151, R154). -/
theorem iterate_tickState_respFlag_of_quiet {s : State} {n : Nat} (hs : hsStartWire s = true) (hn : 1 ≤ n)
    (hquiet : ∀ k, k < n → (s.inputAt k).rxIn = s.rx.lastLevel) : (tickState^[n] s).respFlag = false := by
  induction n, hn using Nat.le_induction with
  | base => exact if_pos hs
  | succ n _ ih =>
    have hbefore := fun k (hk : k < n) => hquiet k (Nat.lt_succ_of_lt hk)
    have hchg := not_changed_iterate_tickState (iterate_tickState_rx_of_quiet hbefore) (hquiet n n.lt_succ_self)
    rw [Function.iterate_succ_apply', tickState_respFlag, flagNext, rxSetWire_of_not_changed hchg, ih hbefore]
    simp

/-- The tick after the transmission performs HS_SEND_DONE (R140). -/
theorem hsSelected_after_transmission {s : State} (hi : s.Inv) (hs : hsStartWire s = true)
    (hr : s.NoReset (48 * s.params.tBit + s.params.tGap + 1))
    (ht : s.TimeFits (48 * s.params.tBit + s.params.tGap + 1)) :
    hsSelected (tickState^[48 * s.params.tBit + s.params.tGap + 1] s) = some .hsSendDone := by
  obtain ⟨t, hrun, -, -, hdone⟩ := transmissionEndsAfterItsExactLength s hi hr ht hs
  cases (run_eq_iterate_tickState hi hr ht).symm.trans hrun
  exact hdone

/-- The wait phase: after HS_SEND_DONE in tick `m`, polls until the timeout. -/
theorem hsSelected_in_silent_wait {s : State} {m k : Nat} (hs : hsStartWire s = true)
    (hdone : hsSelected (tickState^[m] s) = some .hsSendDone)
    (hquiet : ∀ j, j < k + m → (s.inputAt j).rxIn = s.rx.lastLevel) (hk1 : 1 ≤ k) (hk : k ≤ max s.params.tAckTo 1) :
    hsSelected (tickState^[k + m] s) = some (if k < max s.params.tAckTo 1 then .hsWaitPoll else .hsTimeout) := by
  have hflag (j : Nat) (hj1 : 1 ≤ j) (hj : j ≤ k) : (tickState^[j] (tickState^[m] s)).respFlag = false := by
    rw [← Function.iterate_add_apply]
    exact iterate_tickState_respFlag_of_quiet hs (by omega) fun i hi => hquiet i (by omega)
  have hpoll := hsSelected_after_sendDone hdone hflag hk1
  rw [iterate_tickState_params, ← Function.iterate_add_apply] at hpoll
  exact hpoll hk

/-- The nap phase: after HS_TIMEOUT in tick `m`, naps for the floor and then the start. -/
theorem hsSelected_in_nap {s : State} {m k : Nat} (htimeout : hsSelected (tickState^[m] s) = some .hsTimeout)
    (hk1 : 1 ≤ k) (hk : k ≤ max s.params.tToGap 1) :
    hsSelected (tickState^[k + m] s) = some (if k < max s.params.tToGap 1 then .hsNap else .hsStart) := by
  have hnap := hsSelected_after_timeout htimeout hk1
  rw [iterate_tickState_params, ← Function.iterate_add_apply] at hnap
  exact hnap hk

/-- Settles O52: HS is in SEND for the transmission, ends it, polls until the timeout and naps for the floor; only the
tick after the nap starts. -/
theorem silentCycleHasItsExactPeriod : Obligations.SilentCycleHasItsExactPeriod := by
  intro s n hi hs period hr ht hquiet hn1 hn
  refine ⟨_, run_eq_iterate_tickState hi (hr.mono hn) (ht.mono hn), ?_⟩
  set sent := 48 * s.params.tBit + s.params.tGap + 1
  set timeout := max s.params.tAckTo 1
  set floor := max s.params.tToGap 1
  obtain hsending | hsent := Nat.lt_or_ge n sent
  · obtain ⟨m, rfl⟩ : ∃ m, n = m + 1 := Nat.exists_eq_add_one.2 hn1
    rw [(iterate_tickState_sending hi hs (by omega)).hsSelected_eq_hsSendBusy]
    exact iff_of_false (by decide) (by omega)
  obtain ⟨k, rfl⟩ : ∃ k, n = k + sent := Nat.exists_eq_add_of_le' hsent
  have hdone : hsSelected (tickState^[sent] s) = some .hsSendDone :=
    hsSelected_after_transmission hi hs (hr.mono (by omega)) (ht.mono (by omega))
  have hwait (j : Nat) (hj1 : 1 ≤ j) (hj : j ≤ timeout) :=
    hsSelected_in_silent_wait hs hdone (fun i hi => hquiet i (by omega)) hj1 hj
  obtain rfl | hk1 := Nat.eq_zero_or_pos k
  · rw [Nat.zero_add, hdone]
    exact iff_of_false (by decide) (by omega)
  obtain hk | htimeout := le_or_gt k timeout
  · rw [hwait k hk1 hk]
    split_ifs <;> exact iff_of_false (by decide) (by omega)
  obtain ⟨j, rfl⟩ : ∃ j, k = j + timeout := Nat.exists_eq_add_of_le' htimeout.le
  have hlast := hwait timeout (le_max_right _ _) le_rfl
  rw [if_neg (lt_irrefl _)] at hlast
  rw [Nat.add_assoc, hsSelected_in_nap hlast (by omega) (by omega)]
  split_ifs with hlt
  · exact iff_of_false (by decide) (by omega)
  · exact iff_of_true rfl (by omega)

end Sys2Proof.Machine
end

section
/-! PROOFS. The classifier (R163): its scan is the library's search for the first element that passes a test. -/

namespace Sys2Proof.Machine

/-- The comparison of R163, byte by byte. -/
theorem entryMatches_iff {ν : Type} (e : FrameDefinition ν) (F : Frame) :
    entryMatches e F = true ↔
      ∀ k, k < (if e.ignoreLastByte = true then 5 else 6) → frameByte F k = frameByte e.pattern k := by
  simp [entryMatches]

theorem classify_eq_find? {ν : Type} (table : List (FrameDefinition ν)) (F : Frame) :
    classify table F = (table.find? (entryMatches · F)).map FrameDefinition.name := by
  induction table with
  | nil => rfl
  | cons e rest ih => cases he : entryMatches e F <;> simp [classify, he, ih]

theorem classify_eq_some_iff {ν : Type} {table : List (FrameDefinition ν)} {F : Frame} {name : ν} :
    classify table F = some name ↔
      ∃ (before after : List (FrameDefinition ν)) (e : FrameDefinition ν), table = before ++ e :: after ∧
        entryMatches e F = true ∧ e.name = name ∧ ∀ b ∈ before, ¬ entryMatches b F = true := by
  rw [classify_eq_find?, Option.map_eq_some_iff]
  simp only [List.find?_eq_some_iff_append, Bool.not_eq_true', Bool.not_eq_true]
  constructor
  · rintro ⟨e, ⟨he, before, after, htable, hbefore⟩, hname⟩
    exact ⟨before, after, e, htable, he, hname, hbefore⟩
  · rintro ⟨before, after, e, htable, he, hname, hbefore⟩
    exact ⟨e, ⟨he, before, after, htable, hbefore⟩, hname⟩

theorem classify_eq_none_iff {ν : Type} {table : List (FrameDefinition ν)} {F : Frame} :
    classify table F = none ↔ ∀ e ∈ table, ¬ entryMatches e F = true := by
  rw [classify_eq_find?, Option.map_eq_none_iff, List.find?_eq_none]

/-- Settles O60: the two results of the scan, with each match written as the comparison of R163. -/
theorem classifyFindsTheFirstMatch : Obligations.ClassifyFindsTheFirstMatch := by
  intro ν table F fits
  have hfits (e : FrameDefinition ν) : fits e ↔ entryMatches e F = true := (entryMatches_iff e F).symm
  simp only [hfits]
  exact ⟨fun _ => classify_eq_some_iff, classify_eq_none_iff⟩

end Sys2Proof.Machine
end

section
/-! PROOFS. The conditions a tick reports (R168, R175). -/

namespace Sys2Proof.Machine

/-- FRAME and OVERRUN are never raised in one tick: RX performs one operation (R76, R114). -/
theorem rxEvents_frmEvt_or_ovrEvt_false (s : State) : (rxEvents s).frmEvt = false ∨ (rxEvents s).ovrEvt = false := by
  rw [rxEvents_of_selected]
  split_ifs
  · exact .inr rfl
  · exact .inl rfl
  · exact .inl rfl

/-- Outputs that do not raise both strobes of RX report at most one of MALFORMED and OVERRUN (R168). -/
theorem conditions_of_exclusive_strobes {o : Outputs} (h : o.rx.frmEvt = false ∨ o.rx.ovrEvt = false) :
    conditions o ∈ [[], [Condition.malformed], [.overrun], [.timeout], [.malformed, .timeout],
      [.overrun, .timeout]] := by
  unfold conditions
  obtain hfrm | hovr := h
  · cases o.rx.ovrEvt <;> cases o.hsToEvt <;> simp [hfrm]
  · cases o.rx.frmEvt && !o.rx.frmOk <;> cases o.hsToEvt <;> simp [hovr]

/-- Settles O17: a reset tick raises no strobe, and any other tick raises at most one of RX's two. -/
theorem receiverReportsAtMostOneCondition : Obligations.ReceiverReportsAtMostOneCondition := by
  intro s t hstep
  refine conditions_of_exclusive_strobes ?_
  cases hr : s.input.rst with
  | true =>
    obtain ⟨-, rfl⟩ := (step_reset hr).1 hstep
    exact .inl rfl
  | false =>
    obtain ⟨-, rfl⟩ := (step_tick hr).1 hstep
    exact rxEvents_frmEvt_or_ovrEvt_false s

end Sys2Proof.Machine
end

section
/-! PROOFS. Runs in which reset ticks may stand (R178, R203): the parameters, the inputs and `now`, and that they complete. -/

namespace Sys2Proof.Machine

section
variable {s t : State} (hstep : step s = .next t)
include hstep

/-- No tick, reset or not, writes a parameter (R203). -/
theorem step_params : t.params = s.params := by
  cases hr : s.input.rst with
  | true =>
    obtain ⟨-, rfl⟩ := (step_reset hr).1 hstep
    rfl
  | false =>
    obtain ⟨-, rfl⟩ := (step_tick hr).1 hstep
    rfl

/-- `now` after a tick: 0 after a reset (R186), else one more (R91). -/
theorem step_now : t.now = if s.input.rst = true then 0 else s.now + 1 := by
  cases hr : s.input.rst with
  | true =>
    obtain ⟨-, rfl⟩ := (step_reset hr).1 hstep
    rfl
  | false =>
    obtain ⟨-, rfl⟩ := (step_tick hr).1 hstep
    rfl

/-- A tick uses up one tick of the timestamp range, and a reset gives back what was used. -/
theorem State.TimeFits.of_step {n : Nat} (h : s.TimeFits (n + 1)) : t.TimeFits n := by
  have hnow : t.now ≤ s.now + 1 := by
    rw [step_now hstep]
    split_ifs <;> omega
  unfold State.TimeFits at h ⊢
  rw [step_params hstep]
  omega

end

/-- Settles O57: by induction on the ticks, each of which consumes one input and, without a reset, adds 1 to `now`. -/
theorem runsCountTicksAndKeepTheParameters : Obligations.RunsCountTicksAndKeepTheParameters := by
  intro s t n hrun
  induction n generalizing s with
  | zero =>
    cases hrun
    exact ⟨rfl, fun k => by rw [Nat.zero_add], fun _ => rfl⟩
  | succ n ih =>
    obtain ⟨u, hstep, hrest⟩ := run_succ_eq_next.1 hrun
    obtain ⟨hparams, hinputs, hnow⟩ := ih u hrest
    refine ⟨hparams.trans (step_params hstep), fun k => ?_, fun hr => ?_⟩
    · rw [hinputs, step_inputAt hstep, Nat.add_right_comm]
    · have hfirst : s.input.rst = false := hr 0 n.succ_pos
      have hlater : u.NoReset n := fun k hk => by
        rw [step_inputAt hstep]
        exact hr (k + 1) (Nat.succ_lt_succ hk)
      rw [hnow hlater, step_now hstep, hfirst, if_neg Bool.false_ne_true]
      omega

/-- From the invariants a tick goes on while the timestamps it can write fit; a reset tick always does (R185). -/
theorem State.Inv.exists_step {s : State} (h : s.Inv) (ht : s.TimeFits 1) : ∃ t, step s = .next t := by
  cases hr : s.input.rst with
  | true => exact ⟨_, (step_reset hr).2 ⟨h.instanceValid, rfl⟩⟩
  | false => exact ⟨_, (step_tick hr).2 ⟨h.tickOk ht, rfl⟩⟩

/-- Settles O56: by induction on the ticks, each of which goes on and keeps the invariants and the rest of the range. -/
theorem runsNeverStopWithinTheTimestampRange : Obligations.RunsNeverStopWithinTheTimestampRange := by
  intro s n h ht
  induction n generalizing s with
  | zero => exact ⟨s, rfl⟩
  | succ n ih =>
    obtain ⟨u, hstep⟩ := h.exists_step (ht.mono (Nat.le_add_left 1 n))
    obtain ⟨t, hrest⟩ := ih u (tickKeepsTheInvariants s u h hstep) (ht.of_step hstep)
    exact ⟨t, run_succ_eq_next.2 ⟨u, hstep, hrest⟩⟩

end Sys2Proof.Machine
end

section
/-! PROOFS. The RESET operation, and the delay from `ResetState` to the first cycle (R186, R187, R189). -/

namespace Sys2Proof.Machine

/-- Settles O2: RESET passes the gate of R11 and no other, and `resetState` is the reset column written out. -/
theorem resetOperationGivesResetState : Obligations.ResetOperationGivesResetState := fun _ hv =>
  execReset_eq_next.2 ⟨hv, rfl⟩

/-- A tick that finds HS asleep with TX idle starts a cycle once the wake time has come, and naps before (R137, R138). -/
theorem selected_of_sleep {s : State} (hr : s.input.rst = false) (hst : s.hs.state = .sleep) (hidle : s.tx.busy = false) :
    hsSelected s = some (if s.now < s.hs.wakeAt then .hsNap else .hsStart) ∧
      txSelected s = some (if s.now < s.hs.wakeAt then .txIdle else .txLoad) := by
  obtain ⟨hnap, hstart, -⟩ := handshakeOperationFollowsItsState s
  obtain ⟨htxIdle, htxLoad, -⟩ := transmitterOperationFollowsTheSlot s
  split_ifs with hlt
  · have hwire : hsStartWire s = false := hsStartWire_of_not_due fun _ => (not_wakeDue_iff s).2 hlt
    exact ⟨hnap.2 ⟨hst, hlt⟩, htxIdle.2 ⟨hidle, hwire⟩⟩
  · have hdue : s.hs.wakeAt ≤ s.now := Nat.le_of_not_lt hlt
    have hwire : hsStartWire s = true := (hsStartWire_iff s).2 ⟨hr, hst, hdue⟩
    exact ⟨hstart.2 ⟨hst, hdue⟩, htxLoad.2 ⟨hidle, hwire⟩⟩

/-- Settles O51: HS keeps its reset registers, with the wake time `T_GAP`, through the nap, and while it sleeps R47 (i)
keeps TX idle. -/
theorem firstCycleStartsAtTGap : Obligations.FirstCycleStartsAtTGap := by
  intro s n hv hreset hr ht hn
  have hi : s.Inv := resetStateMeetsTheInvariants s hv hreset
  obtain ⟨hzero, -, -, hreg, -⟩ := hreset
  have hnow : (tickState^[n] s).now = n := by rw [iterate_tickState_now, hzero, Nat.zero_add]
  have hhs : (tickState^[n] s).hs = Hs.initial s.params := by
    rw [iterate_tickState_hs_of_sleep (by rw [hreg]; rfl) (by rw [hreg, hzero]; exact hn), hreg]
  have hst : (tickState^[n] s).hs.state = .sleep := by rw [hhs]; rfl
  have hwake : (tickState^[n] s).hs.wakeAt = s.params.tGap := by rw [hhs]; rfl
  have hidle : (tickState^[n] s).tx.busy = false := (iterate_tickState_inv hi n).notSending (.inr hst)
  have hrst : (tickState^[n] s).input.rst = false := by rw [iterate_tickState_input]; exact hr n n.lt_succ_self
  have hsel := selected_of_sleep hrst hst hidle
  rw [hnow, hwake] at hsel
  exact ⟨_, run_eq_iterate_tickState hi (hr.mono n.le_succ) (ht.mono n.le_succ), hnow, txLine_of_idle hidle, hsel⟩

end Sys2Proof.Machine
end
